-- ==== Sys2Proof/Word.lean ====
section
/-! DEFINITION. The two bit-vector types of the part: the byte of a data symbol and the 16-bit quantity of a record. -/

namespace Sys2Proof

/-- A data byte, 0 to 255 (R1). -/
abbrev Byte := BitVec 8

/-- A 16-bit quantity: a check, an operand of a template, a field value (R11, R45, R46). -/
abbrev Word := BitVec 16

end Sys2Proof
end

