-- ==== Sys2Proof/Config.lean ====
section
/-! DEFINITION. The capacities and identifiers the spec fixes for every JS64. No rule leaves a result open, so there is no free value. -/

namespace Sys2Proof.Config

/-- The Delay Line holds 64 symbols (R24). -/
def delayPlaces : Nat := 64

/-- The Watch Table holds 64 entries (R44). -/
def entries : Nat := 64

/-- The Substitution Store holds 16 slots (R123). -/
def substitutionSlots : Nat := 16

/-- The Incident Queue holds at most 32 incidents (R138). -/
def incidentCapacity : Nat := 32

/-- The Capture FIFO holds at most 512 bytes (R174). -/
def captureCapacity : Nat := 512

/-- A train holds at most 2048 symbols (R4). -/
def trainLimit : Nat := 2048

/-- A record's length byte is at most 48 (R9). -/
def maxPayload : Nat := 48

/-- A notice run is twelve FILL (R142). -/
def noticeRunLength : Nat := 12

/-- Loss of signal is declared after 128 symbol times (R23). -/
def silenceLimit : Nat := 128

/-- The vendor identifier that IDENTIFY reports (R152). -/
def vendorId : Word := 23841#16

/-- The part identifier that IDENTIFY reports (R152). -/
def partId : Word := 1600#16

/-- The revision that IDENTIFY reports (R152). -/
def revision : Byte := 3#8

end Sys2Proof.Config
end

