-- ==== Sys2Proof/Syntax.lean ====
section
/-! DEFINITION. The symbols of the trunk and the part's commands: one constructor for each row of spec/opcode_table.json (log 1). -/

namespace Sys2Proof

/-- A symbol of the trunk: a data byte or one of the nine control symbols (R1). -/
inductive Symbol
  | data (b : Byte)
  | fill
  | ts
  | te
  | ta
  | err
  | md
  | mq
  | ma
  | mn
  deriving DecidableEq, Repr

/-- What stands on the line for one symbol time: a symbol, or one that breaks the line code (R2). -/
inductive LineSymbol
  | readable (x : Symbol)
  | unreadable
  deriving DecidableEq, Repr

/-- How the part takes what stands on the line: an unreadable symbol counts as ERR everywhere (R2). -/
def LineSymbol.taken : LineSymbol → Symbol
  | .readable x => x
  | .unreadable => .err

/-- What can bring a train to its end (R21): the arrival of a symbol, or the loss of the signal. -/
inductive Occasion
  | arrival (x : LineSymbol)
  | silence
  deriving DecidableEq, Repr

/-- The part's commands, one for each row of the opcode table. A request row carries the request's target slot, its tag and
its operand bytes (R10); a row that fixes the first operand byte (a mode, a scope, an ABORT condition) carries the rest. -/
inductive Instr
  | powerOn (rate0 rate1 : Bool)
  | resetnAssert
  | resetnRelease (rate0 rate1 : Bool)
  | symbolArrival (x : LineSymbol)
  | trainLimitBreak (x : LineSymbol)
  | lossOfSignal
  | drainEnd
  | joinWaitEntry
  | leavingThePath
  | heldCountExpiry (o : Occasion)
  | dataRecordCompletion (source channel flags : Byte) (payload : List Byte)
  | periodExpiry (entry : Nat) (o : Occasion)
  | stale (entry : Nat) (o : Occasion)
  | captureTimeout (o : Occasion)
  | trialDone (o : Occasion)
  | noticePlacement
  | identify (target tag : Byte) (operands : List Byte)
  | readStatus (target tag : Byte) (operands : List Byte)
  | setAlerts (target tag : Byte) (operands : List Byte)
  | clearAlerts (target tag : Byte) (operands : List Byte)
  | takeIncidents (target tag : Byte) (operands : List Byte)
  | setWindows (target tag : Byte) (operands : List Byte)
  | readEntry (target tag : Byte) (operands : List Byte)
  | loadEntry (target tag : Byte) (operands : List Byte)
  | arm (target tag : Byte) (operands : List Byte)
  | disarm (target tag : Byte) (operands : List Byte)
  | free (target tag : Byte) (operands : List Byte)
  | loadSlot (target tag : Byte) (operands : List Byte)
  | readSlot (target tag : Byte) (operands : List Byte)
  | setModeObserve (target tag : Byte) (rest : List Byte)
  | setModeActive (target tag : Byte) (rest : List Byte)
  | setModeBypass (target tag : Byte) (rest : List Byte)
  | release (target tag : Byte) (operands : List Byte)
  | restartWarm (target tag : Byte) (rest : List Byte)
  | restartTable (target tag : Byte) (rest : List Byte)
  | startCapture (target tag : Byte) (operands : List Byte)
  | readCapture (target tag : Byte) (operands : List Byte)
  | startTrial (target tag : Byte) (operands : List Byte)
  | abortNow (target tag : Byte) (rest : List Byte)
  | abortQuiet (target tag : Byte) (rest : List Byte)
  | abortAtTrip (target tag : Byte) (rest : List Byte)
  | abortAtTrain (target tag : Byte) (rest : List Byte)
  | badCode (code target tag : Byte) (operands : List Byte)
  | powerLoss
  deriving DecidableEq, Repr

end Sys2Proof
end

