-- ==== Sys2Proof/WellFormed.lean ====
section
/-! DEFINITION. Which commands the table spells: the ranges of their operands. -/

namespace Sys2Proof

/-- A symbol that itself ends an open train: TE, TA or TS (R21). -/
def Symbol.endsTrain : Symbol → Bool
  | .te => true
  | .ta => true
  | .ts => true
  | _ => false

/-- A record carries at most 48 payload bytes (R9). -/
def payloadFits (n : Nat) : Bool := decide (n ≤ Config.maxPayload)

/-- A command whose operands lie in the ranges the spec gives them. A train-limit break comes at a symbol that does not
itself end the train (R21); an entry is one of 64 (R44); a record's payload is at most 48 bytes (R9); a bad code lies
outside 1 to 20 (R147). -/
def Instr.wellFormed : Instr → Bool
  | .powerOn _ _ => true
  | .resetnAssert => true
  | .resetnRelease _ _ => true
  | .symbolArrival _ => true
  | .trainLimitBreak x => !x.taken.endsTrain
  | .lossOfSignal => true
  | .drainEnd => true
  | .joinWaitEntry => true
  | .leavingThePath => true
  | .heldCountExpiry _ => true
  | .dataRecordCompletion _ _ _ payload => payloadFits payload.length
  | .periodExpiry entry _ => decide (entry < Config.entries)
  | .stale entry _ => decide (entry < Config.entries)
  | .captureTimeout _ => true
  | .trialDone _ => true
  | .noticePlacement => true
  | .identify _ _ operands => payloadFits operands.length
  | .readStatus _ _ operands => payloadFits operands.length
  | .setAlerts _ _ operands => payloadFits operands.length
  | .clearAlerts _ _ operands => payloadFits operands.length
  | .takeIncidents _ _ operands => payloadFits operands.length
  | .setWindows _ _ operands => payloadFits operands.length
  | .readEntry _ _ operands => payloadFits operands.length
  | .loadEntry _ _ operands => payloadFits operands.length
  | .arm _ _ operands => payloadFits operands.length
  | .disarm _ _ operands => payloadFits operands.length
  | .free _ _ operands => payloadFits operands.length
  | .loadSlot _ _ operands => payloadFits operands.length
  | .readSlot _ _ operands => payloadFits operands.length
  | .setModeObserve _ _ rest => payloadFits (rest.length + 1)
  | .setModeActive _ _ rest => payloadFits (rest.length + 1)
  | .setModeBypass _ _ rest => payloadFits (rest.length + 1)
  | .release _ _ operands => payloadFits operands.length
  | .restartWarm _ _ rest => payloadFits (rest.length + 1)
  | .restartTable _ _ rest => payloadFits (rest.length + 1)
  | .startCapture _ _ operands => payloadFits operands.length
  | .readCapture _ _ operands => payloadFits operands.length
  | .startTrial _ _ operands => payloadFits operands.length
  | .abortNow _ _ rest => payloadFits (rest.length + 1)
  | .abortQuiet _ _ rest => payloadFits (rest.length + 1)
  | .abortAtTrip _ _ rest => payloadFits (rest.length + 1)
  | .abortAtTrain _ _ rest => payloadFits (rest.length + 1)
  | .badCode code _ _ operands => (decide (code.toNat = 0) || decide (20 < code.toNat)) && payloadFits operands.length
  | .powerLoss => true

end Sys2Proof
end

