-- ==== Sys2Proof/Decode.lean ====
section
/-! DEFINITION. The words of the opcode table. The table gives no row any bits, so no word spells a command (log 4). -/

namespace Sys2Proof

/-- The command that a word of the table's bits spells: none, since no row of spec/opcode_table.json gives bits (log 4). -/
def decodeTableWord (_nbits _w : Nat) : Option Instr := none

end Sys2Proof
end

