-- ==== Sys2Proof/Machine/State.lean ====
section
/-! DEFINITION. Everything the spec gives the part, block by block, as plain data, and the machine right after reset. -/

namespace Sys2Proof.Machine

/-- The reasons the part stops with a fault. None: every event of the spec leaves the part running (R22, R150). -/
inductive Fault
  deriving DecidableEq, Repr

/-- The reasons a command is refused. -/
inductive Refusal
  /-- Raised by an arm of exec whose command has no meaning yet. Safe: nothing is claimed of it. No arm raises it. -/
  | notModelled (mnemonic : String)
  deriving DecidableEq, Repr

/-! ### The Trunk Receiver and Framer (01, section 1.4) -/

/-- The trunk symbol rate that RATE1 and RATE0 select (R3, 00 "Pins and package"). -/
inductive Rate
  | million10
  | million25
  | million50
  | million100
  deriving DecidableEq, Repr

/-- The kind of a record, given by its mark (R9). -/
inductive RecordKind
  | data
  | request
  | reply
  | notice
  deriving DecidableEq, Repr

/-- The record the Framer is inside (R17). L is the first of the bytes; the symbols taken are one more than the bytes. -/
structure RecordProgress where
  /-- Given by the mark. -/
  kind : RecordKind
  /-- The bytes taken after the mark, in order; an ERR keeps its place with a 0, which errSeen keeps from being used (log 19). -/
  bytes : List Byte
  /-- The running check over the covered bytes (R11). -/
  check : Word
  /-- An ERR has stood in the place of a byte (R17). -/
  errSeen : Bool
  deriving DecidableEq, Repr

/-- Where in the train the next symbol falls (01, section 1.4). -/
inductive ParsePosition
  | outside
  /-- Header byte 1, 2 or 3 is due. -/
  | header (due : Nat)
  /-- Status slot k of N is due. -/
  | status (due : Nat)
  | body
  | record (r : RecordProgress)
  | skip
  | unread
  deriving DecidableEq, Repr

/-- Whether loss of signal holds (R23). -/
inductive Signal
  | present
  | lost
  deriving DecidableEq, Repr

/-- The Framer's state. A train is open exactly when the parse position is not OUTSIDE. -/
structure Framer where
  position : ParsePosition
  /-- N, the slot count, as far as it has arrived; 0 when the header is empty (R5, log 7). -/
  slotCount : Nat
  /-- The flags byte, as far as it has arrived; 0 when the header is empty (R5, log 7). -/
  flags : Byte
  /-- The current train sequence number (R5). -/
  sequence : Byte
  /-- The status bytes received so far, slot 1 first (R7). -/
  statusBytes : List Byte
  /-- Symbols of the open train taken so far, TS counting as 1; 0 when no train is open. -/
  symbolCount : Nat
  trainFaulted : Bool
  strayReported : Bool
  signal : Signal
  /-- Symbol times since the last arrival, 0 to 128 (R23). -/
  silence : Nat
  deriving DecidableEq, Repr

/-! ### The Link Controller (02, section 2.1) -/

inductive LinkState
  | acquire
  | joinWait
  | inline
  | leaveWait
  | held
  deriving DecidableEq, Repr

inductive Mode
  | observe
  | active
  deriving DecidableEq, Repr

/-- A mode requested in the current train and not yet applied (R37, R38). -/
inductive PendingMode
  | none
  | observe
  | active
  | bypass (heldCount : Nat)
  deriving DecidableEq, Repr

structure Link where
  state : LinkState
  cleanCount : Nat
  mode : Mode
  pendingMode : PendingMode
  heldCount : Nat
  /-- Closed joins UP to DN directly (R28). -/
  bypassClosed : Bool
  draining : Bool
  /-- A TA follows the last drained symbol: a train was open when the loss of signal was declared (R34). -/
  drainTa : Bool
  deriving DecidableEq, Repr

/-! ### The Watch Table (03) -/

inductive EntryState
  | free
  | loaded
  | armed
  | trial
  deriving DecidableEq, Repr

inductive Template
  | window
  | pattern
  | delta
  deriving DecidableEq, Repr

inductive Reaction
  | pass
  | mark
  | substitute
  | drop
  | isolate
  deriving DecidableEq, Repr

inductive Condition
  | conforming
  | suspect
  | tripped
  deriving DecidableEq, Repr

inductive Timing
  | fresh
  | late
  | stale
  deriving DecidableEq, Repr

/-- The configuration fields of an entry (R44 to R48). -/
structure EntryConfig where
  source : Byte
  channel : Byte
  offset : Nat
  /-- The field is 2 bytes wide. -/
  wide : Bool
  signed : Bool
  kind : Template
  a : Word
  b : Word
  /-- D -/
  deglitch : Nat
  /-- P -/
  period : Nat
  /-- M -/
  missLimit : Nat
  reaction : Reaction
  latch : Bool
  slot : Nat
  deriving DecidableEq, Repr

/-- The trial results of an entry, when present (R52). -/
structure TrialResults where
  seen : Nat
  nonconforming : Nat
  longestRun : Nat
  incomplete : Bool
  deriving DecidableEq, Repr

/-- The live fields of an entry, but for its state (R49 to R52). -/
structure Live where
  condition : Condition
  recovered : Bool
  run : Nat
  timing : Timing
  /-- Trains since match. -/
  since : Nat
  miss : Nat
  previous : Option Word
  trips : Nat
  nonconforming : Nat
  trial : Option TrialResults
  deriving DecidableEq, Repr

structure Entry where
  state : EntryState
  config : EntryConfig
  live : Live
  deriving DecidableEq, Repr

/-- Every configuration field 0 (R55). -/
def EntryConfig.zero : EntryConfig :=
  { source := 0#8, channel := 0#8, offset := 0, wide := false, signed := false, kind := .window, a := 0#16, b := 0#16,
    deglitch := 0, period := 0, missLimit := 0, reaction := .pass, latch := false, slot := 0 }

/-- The starting values of the live fields (R55). -/
def Live.starting : Live :=
  { condition := .conforming, recovered := false, run := 0, timing := .fresh, since := 0, miss := 0, previous := none,
    trips := 0, nonconforming := 0, trial := none }

/-- A FREE entry holds the zero value of every field (R55). -/
def Entry.empty : Entry := { state := .free, config := EntryConfig.zero, live := Live.starting }

structure WatchTable where
  /-- Entry 0 first; 64 of them. -/
  entries : List Entry
  w0 : Nat
  w1 : Nat
  deriving DecidableEq, Repr

/-- The empty table: every entry FREE, W0 0 and W1 1 (R64, R68). -/
def WatchTable.empty : WatchTable := { entries := List.replicate Config.entries Entry.empty, w0 := 0, w1 := 1 }

/-! ### The Reaction Unit (06) -/

structure ReactionUnit where
  /-- The isolation state: ISOLATED, or NONE. -/
  isolated : Bool
  /-- The Substitution Store, slot 0 first; 16 slots, an empty slot holding no byte (R123). -/
  store : List (List Byte)
  deriving DecidableEq, Repr

/-- Every slot empty (R123). -/
def emptyStore : List (List Byte) := List.replicate Config.substitutionSlots []

/-! ### The Alert Unit and the Incident Queue (07) -/

/-- The seven alert factors, in the order of their codes 0 to 6 (07, section 7.1). -/
inductive Factor
  | trip
  | stale
  | link
  | qfull
  | slot
  | isol
  | opdone
  deriving DecidableEq, Repr

/-- One value for each factor. -/
structure PerFactor (α : Type) where
  trip : α
  stale : α
  link : α
  qfull : α
  slot : α
  isol : α
  opdone : α
  deriving DecidableEq, Repr

structure AlertUnit where
  /-- The pending flags. -/
  flags : PerFactor Bool
  levels : PerFactor Nat
  /-- T -/
  threshold : Nat
  noticeEnable : Bool
  noticeWaiting : Bool
  noticeCause : Factor
  noticeRun : Nat
  /-- The part asserts ALERTn, driving the line low (R132). -/
  alertn : Bool
  deriving DecidableEq, Repr

/-- The Alert Unit after reset (R145; the notice cause is log 6). -/
def AlertUnit.reset : AlertUnit :=
  { flags := { trip := false, stale := false, link := false, qfull := false, slot := false, isol := false, opdone := false },
    levels := { trip := 3, stale := 2, link := 1, qfull := 1, slot := 1, isol := 3, opdone := 0 },
    threshold := 1, noticeEnable := false, noticeWaiting := false, noticeCause := .trip, noticeRun := 0, alertn := false }

inductive IncidentKind
  | trip
  | stale
  | recover
  | link
  deriving DecidableEq, Repr

/-- One incident (R138). -/
structure Incident where
  sequence : Byte
  kind : IncidentKind
  entry : Option Nat
  train : Byte
  value : Option Word
  deriving DecidableEq, Repr

structure IncidentQueue where
  /-- Oldest first. -/
  items : List Incident
  /-- The sequence counter. -/
  counter : Byte
  deriving DecidableEq, Repr

/-! ### The Operation Unit (09) -/

/-- The fields of a running capture (R172 to R175). -/
structure CaptureFields where
  source : Byte
  channel : Byte
  channelAny : Bool
  /-- K -/
  wanted : Nat
  limit : Nat
  matched : Nat
  stored : Nat
  lost : Nat
  /-- Trains without match. -/
  without : Nat
  deriving DecidableEq, Repr

/-- The fields of a running trial (R177, R178). -/
structure TrialFields where
  entry : Nat
  limit : Nat
  counted : Nat
  deriving DecidableEq, Repr

/-- The operation slot, with the running operation's fields (R169, log 27). -/
inductive OperationSlot
  | idle
  | capture (c : CaptureFields)
  | trial (t : TrialFields)
  deriving DecidableEq, Repr

inductive PendingAbort
  | none
  | atTrip
  | atTrain
  deriving DecidableEq, Repr

inductive ResultKind
  | none
  | capture
  | trial
  deriving DecidableEq, Repr

inductive EndCause
  | done
  | timeout
  | aborted
  deriving DecidableEq, Repr

/-- The last-operation result (R170). -/
structure LastResult where
  kind : ResultKind
  cause : EndCause
  byte1 : Byte
  byte2 : Byte
  byte3 : Byte
  deriving DecidableEq, Repr

structure OperationUnit where
  slot : OperationSlot
  pendingAbort : PendingAbort
  last : LastResult
  /-- The Capture FIFO, head first. -/
  fifo : List Byte
  deriving DecidableEq, Repr

/-- The Operation Unit after reset: IDLE, no pending abort, result NONE coded as zero, FIFO empty (R170, R184). -/
def OperationUnit.reset : OperationUnit :=
  { slot := .idle, pendingAbort := .none, last := { kind := .none, cause := .done, byte1 := 0#8, byte2 := 0#8, byte3 := 0#8 },
    fifo := [] }

/-! ### The whole part -/

structure State where
  /-- The supply is present. -/
  powered : Bool
  /-- RESETn is high. -/
  resetnHigh : Bool
  rate : Rate
  /-- What left at DN during the latest command, oldest first (log 11). -/
  dn : List LineSymbol
  framer : Framer
  link : Link
  /-- The status slot claimed in the current train; none is unplaced (R39). -/
  position : Option Nat
  /-- The Delay Line, place 1 first: the newest symbol at the head, the oldest last (R24). -/
  delay : List Symbol
  table : WatchTable
  /-- The Record Judge's trial streak (R89). -/
  trialStreak : Nat
  reaction : ReactionUnit
  alert : AlertUnit
  queue : IncidentQueue
  op : OperationUnit
  /-- The commands that wait, first in first out. -/
  pending : List Instr
  deriving DecidableEq, Repr

/-- The Framer after reset (R12). -/
def Framer.reset : Framer :=
  { position := .outside, slotCount := 0, flags := 0#8, sequence := 0#8, statusBytes := [], symbolCount := 0,
    trainFaulted := false, strayReported := false, signal := .present, silence := 0 }

/-- The Link Controller after reset (R27). -/
def Link.reset : Link :=
  { state := .acquire, cleanCount := 0, mode := .observe, pendingMode := .none, heldCount := 0, bypassClosed := true,
    draining := false, drainTa := false }

/-- The machine right after reset: powered, RESETn high again, in ACQUIRE (R27, R43); no rate pin sampled high (log 5). -/
def State.reset : State :=
  { powered := true, resetnHigh := true, rate := .million10, dn := [], framer := Framer.reset, link := Link.reset,
    position := none, delay := List.replicate Config.delayPlaces .fill, table := WatchTable.empty, trialStreak := 0,
    reaction := { isolated := false, store := emptyStore }, alert := AlertUnit.reset,
    queue := { items := [], counter := 0#8 }, op := OperationUnit.reset, pending := [] }

end Sys2Proof.Machine
end

