-- ==== Sys2Proof/Machine/Ops.lean ====
section
/-! DEFINITION. Bytes and bits, the cyclic check, the wire form of a record, the Delay Line, and access to the parts of State. -/

namespace Sys2Proof.Machine

/-! ### Bytes and bits -/

/-- A number as a byte, right-aligned with zeros above it (R185). -/
def byteOf (n : Nat) : Byte := BitVec.ofNat 8 n

/-- The high byte of a 16-bit quantity; it is sent first (R185). -/
def highByte (w : Word) : Byte := w.extractLsb' 8 8

/-- The low byte of a 16-bit quantity. -/
def lowByte (w : Word) : Byte := w.extractLsb' 0 8

/-- A 16-bit quantity from its high byte and its low byte (R185). -/
def wordOf (hi lo : Byte) : Word := hi ++ lo

/-- A 16-bit quantity as the two bytes that are sent (R185). -/
def wordBytes (w : Word) : List Byte := [highByte w, lowByte w]

/-- A flag in bit k of a byte. -/
def bitAt (b : Bool) (k : Nat) : Byte := if b then 1#8 <<< k else 0#8

/-- The bit of a flag that fills a whole byte. -/
def flagByte (b : Bool) : Byte := bitAt b 0

/-- A saturating count goes up by 1 and stops at its limit (00 "Conventions"). -/
def saturate (limit n : Nat) : Nat := if n < limit then n + 1 else n

/-! ### The check of a record (R11) -/

/-- One bit into the check register: shift left, and combine 4129 when the bit leaving differs from the bit coming in. -/
def checkBit (reg : Word) (b : Bool) : Word :=
  if reg.msb != b then (reg <<< 1) ^^^ 4129#16 else reg <<< 1

/-- One byte into the check register, most significant bit first. -/
def checkByte (reg : Word) (b : Byte) : Word :=
  [7, 6, 5, 4, 3, 2, 1, 0].foldl (fun r k => checkBit r (b.getLsbD k)) reg

/-- The check register starts at all ones. -/
def checkStart : Word := 65535#16

/-- The check of the covered bytes, in the order they are sent. -/
def checkOf (covered : List Byte) : Word := covered.foldl checkByte checkStart

/-! ### The wire form of a record (R9, R10) -/

/-- A record: its kind, three fixed bytes and payload. -/
structure WireRecord where
  kind : RecordKind
  fixed1 : Byte
  fixed2 : Byte
  fixed3 : Byte
  payload : List Byte
  deriving DecidableEq, Repr

/-- The mark that gives the kind (R9). -/
def RecordKind.mark : RecordKind → Symbol
  | .data => .md
  | .request => .mq
  | .reply => .ma
  | .notice => .mn

/-- The bytes the check covers: length, fixed bytes, payload (R11). -/
def WireRecord.covered (r : WireRecord) : List Byte :=
  byteOf r.payload.length :: r.fixed1 :: r.fixed2 :: r.fixed3 :: r.payload

/-- The bytes after the mark: the covered bytes and the check, high byte first (R9, R11). -/
def WireRecord.bytes (r : WireRecord) : List Byte := r.covered ++ wordBytes (checkOf r.covered)

/-- The L+7 symbols of the record in the order they are sent (R9). -/
def WireRecord.symbols (r : WireRecord) : List Symbol := r.kind.mark :: r.bytes.map .data

/-- A valid data record (R10). -/
structure DataRecord where
  source : Byte
  channel : Byte
  flags : Byte
  payload : List Byte
  deriving DecidableEq, Repr

def DataRecord.wire (d : DataRecord) : WireRecord :=
  { kind := .data, fixed1 := d.source, fixed2 := d.channel, fixed3 := d.flags, payload := d.payload }

/-- A request as delivered at its completion (R10). -/
structure Request where
  target : Byte
  tag : Byte
  code : Byte
  operands : List Byte
  deriving DecidableEq, Repr

def Request.wire (q : Request) : WireRecord :=
  { kind := .request, fixed1 := q.target, fixed2 := q.tag, fixed3 := q.code, payload := q.operands }

/-! ### The Delay Line (R24, R25) -/

/-- Writes symbols, given in the order they are sent, over the newest places: the last of them at place 1. -/
def overwriteNewest (symbols : List Symbol) (delay : List Symbol) : List Symbol :=
  symbols.reverse ++ delay.drop symbols.length

/-- A record's rewrite at its completion, over places 1 to L+7 (R109, R149). -/
def State.rewriteRecord (r : WireRecord) (s : State) : State := { s with delay := overwriteNewest r.symbols s.delay }

/-- A blanking of the newest n places with FILL (R109). -/
def State.blankNewest (n : Nat) (s : State) : State := { s with delay := overwriteNewest (List.replicate n .fill) s.delay }

/-- A Delay Line of 64 FILL (R24, R31). -/
def fillDelay : List Symbol := List.replicate Config.delayPlaces .fill

/-! ### Reading the parts of State -/

/-- A train is open at the Framer. -/
def Framer.trainOpen (f : Framer) : Bool :=
  match f.position with
  | .outside => false
  | _ => true

/-- The open train is readable: its header and status area arrived as R4 asks. -/
def Framer.readable (f : Framer) : Bool :=
  match f.position with
  | .body => true
  | .record _ => true
  | .skip => true
  | _ => false

/-- The header flags of the train in progress; those of an unreadable train count as clear (R6, R187). -/
def Framer.clrFlag (f : Framer) : Bool := f.readable && f.flags.getLsbD 0

def Framer.freezeFlag (f : Framer) : Bool := f.readable && f.flags.getLsbD 1

def Framer.joinFlag (f : Framer) : Bool := f.readable && f.flags.getLsbD 2

/-- The part is in the path: INLINE or LEAVE-WAIT (02, section 2.1). -/
def LinkState.inPath : LinkState → Bool
  | .inline => true
  | .leaveWait => true
  | _ => false

def State.inPath (s : State) : Bool := s.link.state.inPath

/-- The part has its supply and is not held in reset. -/
def State.running (s : State) : Bool := s.powered && s.resetnHigh

/-- An entry of the Watch Table by its index. -/
def State.entry (s : State) (i : Nat) : Entry := s.table.entries.getD i Entry.empty

/-- Replaces one entry by a function of itself. -/
def State.updateEntry (i : Nat) (f : Entry → Entry) (s : State) : State :=
  { s with table := { s.table with entries := s.table.entries.modify i f } }

/-- The entry is working: ARMED or TRIAL (R54). -/
def Entry.working (e : Entry) : Bool := e.state == .armed || e.state == .trial

/-- The entry's key is this source and channel (R45). -/
def Entry.hasKey (e : Entry) (source channel : Byte) : Bool := e.config.source == source && e.config.channel == channel

/-- The content of a substitution slot, empty when the slot holds nothing (R123). -/
def State.slotContent (s : State) (i : Nat) : List Byte := s.reaction.store.getD i []

/-- Replaces the content of a substitution slot as a whole (R124). -/
def State.fillSlot (i : Nat) (content : List Byte) (s : State) : State :=
  { s with reaction := { s.reaction with store := s.reaction.store.set i content } }

/-- No operation runs (R169). -/
def OperationSlot.isIdle : OperationSlot → Bool
  | .idle => true
  | _ => false

/-- Nothing has left at DN yet in the command that begins. -/
def State.quiet (s : State) : State := { s with dn := [] }

/-- Symbols leave at DN. -/
def State.emit (xs : List LineSymbol) (s : State) : State := { s with dn := s.dn ++ xs }

end Sys2Proof.Machine
end

