-- ==== Sys2Proof/Machine/Flags.lean ====
section
/-! DEFINITION. The alert factors, ALERTn, the notice that waits, incidents, fault reports, the status byte, the factor set and the clear. -/

namespace Sys2Proof.Machine

def PerFactor.get {α : Type} (p : PerFactor α) : Factor → α
  | .trip => p.trip
  | .stale => p.stale
  | .link => p.link
  | .qfull => p.qfull
  | .slot => p.slot
  | .isol => p.isol
  | .opdone => p.opdone

def PerFactor.set {α : Type} (p : PerFactor α) (f : Factor) (v : α) : PerFactor α :=
  match f with
  | .trip => { p with trip := v }
  | .stale => { p with stale := v }
  | .link => { p with link := v }
  | .qfull => { p with qfull := v }
  | .slot => { p with slot := v }
  | .isol => { p with isol := v }
  | .opdone => { p with opdone := v }

/-- The factor's code (07, section 7.1). -/
def Factor.code : Factor → Nat
  | .trip => 0
  | .stale => 1
  | .link => 2
  | .qfull => 3
  | .slot => 4
  | .isol => 5
  | .opdone => 6

/-- The factors in the order of their codes. -/
def allFactors : List Factor := [.trip, .stale, .link, .qfull, .slot, .isol, .opdone]

/-- No flag set (R145). -/
def noFlags : PerFactor Bool := AlertUnit.reset.flags

/-! ### ALERTn, raising and clearing (R125, R132, R141) -/

/-- At least one factor is pending with a level at or above T (R132). -/
def AlertUnit.asserts (a : AlertUnit) : Bool :=
  allFactors.any fun f => a.flags.get f && decide (a.threshold ≤ a.levels.get f)

/-- ALERTn follows the factors, the levels and the threshold at once (R132). -/
def AlertUnit.settle (a : AlertUnit) : AlertUnit := { a with alertn := a.asserts }

/-- A rise sets off a notice when notices are enabled and the factor's level is at or above T (R141). -/
def AlertUnit.rise (f : Factor) (a : AlertUnit) : AlertUnit :=
  if a.noticeEnable && decide (a.threshold ≤ a.levels.get f) then { a with noticeWaiting := true, noticeCause := f } else a

/-- A factor is raised; only a change from clear to set is a rise (R125). -/
def AlertUnit.raise (f : Factor) (a : AlertUnit) : AlertUnit :=
  if a.flags.get f then a else ({ a.rise f with flags := a.flags.set f true }).settle

/-- A factor is cleared (R125). -/
def AlertUnit.clear (f : Factor) (a : AlertUnit) : AlertUnit := ({ a with flags := a.flags.set f false }).settle

def State.raise (f : Factor) (s : State) : State := { s with alert := s.alert.raise f }

def State.clearFactor (f : Factor) (s : State) : State := { s with alert := s.alert.clear f }

/-! ### Incidents and fault reports (R22, R139) -/

/-- A push: the incident joins with the counter's number, or is refused at depth 32 and QFULL is raised (R128, R139). -/
def State.pushIncident (kind : IncidentKind) (entry : Option Nat) (value : Option Word) (s : State) : State :=
  if s.queue.items.length < Config.incidentCapacity then
    let incident : Incident :=
      { sequence := s.queue.counter, kind := kind, entry := entry, train := s.framer.sequence, value := value }
    { s with queue := { items := s.queue.items ++ [incident], counter := s.queue.counter + 1#8 } }
  else s.raise .qfull

/-- A fault report of the Framer: LINK is raised, then the LINK incident is handed on (R22, R127). -/
def State.report (cause : Nat) (s : State) : State :=
  (s.raise .link).pushIncident .link none (some (BitVec.ofNat 16 cause))

/-- Causes 1 to 4 are reported only while the part is in the path (R22). -/
def State.reportInPath (cause : Nat) (s : State) : State := if s.inPath then s.report cause else s

/-! ### The isolation state and its factor (R116, R129) -/

/-- Isolation comes into force, and ISOL with it. -/
def State.enterIsolation (s : State) : State :=
  ({ s with reaction := { s.reaction with isolated := true } }).raise .isol

/-- Isolation ends, and ISOL clears with it. -/
def State.endIsolation (s : State) : State :=
  ({ s with reaction := { s.reaction with isolated := false } }).clearFactor .isol

/-! ### The factor set and the status byte (R133, R187, R190) -/

/-- The factor set: bit k for the factor with code k, bit 7 when the part asserts ALERTn. -/
def AlertUnit.factorSet (a : AlertUnit) : Byte :=
  bitAt a.flags.trip 0 ||| bitAt a.flags.stale 1 ||| bitAt a.flags.link 2 ||| bitAt a.flags.qfull 3 |||
    bitAt a.flags.slot 4 ||| bitAt a.flags.isol 5 ||| bitAt a.flags.opdone 6 ||| bitAt a.alertn 7

/-- The status byte, composed from the part's state as it stands. -/
def State.statusByte (s : State) : Byte :=
  bitAt s.alert.alertn 6 ||| bitAt s.alert.flags.trip 5 ||| bitAt s.alert.flags.stale 4 ||| bitAt s.alert.flags.link 3 |||
    bitAt s.reaction.isolated 2 ||| bitAt (!s.op.slot.isIdle) 1 ||| bitAt (!s.queue.items.isEmpty) 0

/-! ### The clear (R134, R135) -/

/-- The entries a clear examines. -/
inductive ClearScope
  | noEntry
  | oneEntry (i : Nat)
  | allEntries
  deriving DecidableEq, Repr

/-- The entry step for one entry in scope: an ARMED, TRIPPED entry with recovered set is released. -/
def Entry.released (e : Entry) : Entry :=
  if e.state == .armed && e.live.condition == .tripped && e.live.recovered then
    { e with live := { e.live with condition := .conforming, run := 0, recovered := false } }
  else e

/-- The entry step of a clear. -/
def State.clearEntries (scope : ClearScope) (s : State) : State :=
  match scope with
  | .noEntry => s
  | .oneEntry i => s.updateEntry i Entry.released
  | .allEntries => { s with table := { s.table with entries := s.table.entries.map Entry.released } }

/-- Whether some entry of the whole table is TRIPPED (R126). -/
def State.anyTripped (s : State) : Bool := s.table.entries.any fun e => e.live.condition == .tripped

/-- Whether some entry of the whole table is STALE (R126). -/
def State.anyStale (s : State) : Bool := s.table.entries.any fun e => e.live.timing == .stale

/-- Whether the factor step clears the factor, if its mask names it (R135). -/
def State.clears (s : State) : Factor → Bool
  | .trip => !s.anyTripped
  | .stale => !s.anyStale
  | .link => true
  | .qfull => decide (s.queue.items.length < Config.incidentCapacity)
  | .slot => true
  | .isol => !s.reaction.isolated
  | .opdone => true

/-- A pending flag after the factor step. -/
def State.flagAfterClear (mask : PerFactor Bool) (s : State) (f : Factor) : Bool :=
  s.alert.flags.get f && !(mask.get f && s.clears f)

/-- The factor step of a clear. -/
def State.clearFactors (mask : PerFactor Bool) (s : State) : State :=
  let keep := s.flagAfterClear mask
  let flags : PerFactor Bool :=
    { trip := keep .trip, stale := keep .stale, link := keep .link, qfull := keep .qfull, slot := keep .slot,
      isol := keep .isol, opdone := keep .opdone }
  { s with alert := ({ s.alert with flags := flags }).settle }

/-- A clear: the entry step, then the factor step. -/
def State.clear (mask : PerFactor Bool) (scope : ClearScope) (s : State) : State :=
  (s.clearEntries scope).clearFactors mask

/-- Every factor in the mask, as the header CLR makes a clear (R137). -/
def fullMask : PerFactor Bool :=
  { trip := true, stale := true, link := true, qfull := true, slot := true, isol := true, opdone := true }

end Sys2Proof.Machine
end

