-- ==== Sys2Proof/Machine/Operands.lean ====
section
/-! DEFINITION. What requests carry and replies return: entry addresses, the configuration bytes, the entry image, the incident item,
the capture image, the READ STATUS report, the notice payload, and the codes of 10. -/

namespace Sys2Proof.Machine

/-- Operand byte k of a request. -/
def operand (operands : List Byte) (k : Nat) : Byte := operands.getD k 0#8

/-- Operand byte k as a number. -/
def operandNat (operands : List Byte) (k : Nat) : Nat := (operand operands k).toNat

/-! ### Entry addresses (R65) -/

/-- The entry an address byte names, by index or through a window; none for a byte that names no entry. -/
def State.resolve (s : State) (address : Byte) : Option Nat :=
  let n := address.toNat
  if n < 64 then some n
  else if 128 ≤ n ∧ n < 136 then some (s.table.w0 * 8 + (n - 128))
  else if 136 ≤ n ∧ n < 144 then some (s.table.w1 * 8 + (n - 136))
  else none

/-! ### Codes (R188, R189) -/

def EntryState.code : EntryState → Nat
  | .free => 0
  | .loaded => 1
  | .armed => 2
  | .trial => 3

def Condition.code : Condition → Nat
  | .conforming => 0
  | .suspect => 1
  | .tripped => 2

def Timing.code : Timing → Nat
  | .fresh => 0
  | .late => 1
  | .stale => 2

def Template.code : Template → Nat
  | .window => 0
  | .pattern => 1
  | .delta => 2

def Reaction.code : Reaction → Nat
  | .pass => 0
  | .mark => 1
  | .substitute => 2
  | .drop => 3
  | .isolate => 4

def templateOf : Nat → Option Template
  | 0 => some .window
  | 1 => some .pattern
  | 2 => some .delta
  | _ => none

def reactionOf : Nat → Option Reaction
  | 0 => some .pass
  | 1 => some .mark
  | 2 => some .substitute
  | 3 => some .drop
  | 4 => some .isolate
  | _ => none

def OperationSlot.code : OperationSlot → Nat
  | .idle => 0
  | .capture _ => 1
  | .trial _ => 2

def PendingAbort.code : PendingAbort → Nat
  | .none => 0
  | .atTrip => 3
  | .atTrain => 4

def Mode.code : Mode → Nat
  | .observe => 1
  | .active => 2

def PendingMode.code : PendingMode → Nat
  | .none => 0
  | .observe => 1
  | .active => 2
  | .bypass _ => 3

/-- The held count a pending BYPASS carries; 0 for every other pending mode (R165). -/
def PendingMode.held : PendingMode → Nat
  | .bypass h => h
  | _ => 0

def ResultKind.code : ResultKind → Nat
  | .none => 0
  | .capture => 1
  | .trial => 2

def EndCause.code : EndCause → Nat
  | .done => 0
  | .timeout => 1
  | .aborted => 2

def IncidentKind.code : IncidentKind → Nat
  | .trip => 0
  | .stale => 1
  | .recover => 2
  | .link => 3

/-- A field of a byte: a narrow code in the bits from k up. -/
def fieldAt (n k : Nat) : Byte := byteOf n <<< k

/-- The n bits of a byte from bit k up, as a number. -/
def bitsOf (b : Byte) (k n : Nat) : Nat := (b.extractLsb' k n).toNat

/-! ### The configuration bytes (R56, R189) -/

/-- The width of the watched field in bytes (R45). -/
def EntryConfig.width (c : EntryConfig) : Nat := if c.wide then 2 else 1

/-- The field byte: offset in bits 5 to 0, width in bit 6, signedness in bit 7. -/
def EntryConfig.fieldByte (c : EntryConfig) : Byte := byteOf c.offset ||| bitAt c.wide 6 ||| bitAt c.signed 7

/-- The kind, reaction and latch byte, bits 5 to 0. -/
def EntryConfig.kindByte (c : EntryConfig) : Byte :=
  fieldAt c.kind.code 0 ||| fieldAt c.reaction.code 2 ||| bitAt c.latch 5

/-- The 12 configuration bytes, as a LOAD ENTRY carries them and its reply returns them. -/
def EntryConfig.toBytes (c : EntryConfig) : List Byte :=
  [c.source, c.channel, c.fieldByte, c.kindByte] ++ wordBytes c.a ++ wordBytes c.b ++
    [byteOf c.deglitch, byteOf c.period, byteOf c.missLimit, byteOf c.slot]

/-- Compares two operands as numbers of the entry's signedness (R46). -/
def lessEq (signed : Bool) (x y : Word) : Bool := if signed then x.sle y else x.ule y

/-- The checks of R56 that concern ranges and operands, for a configuration whose codes are legal. -/
def EntryConfig.legal (c : EntryConfig) : Bool :=
  decide (c.offset + c.width ≤ 48) && decide (1 ≤ c.deglitch) && decide (c.deglitch ≤ 15) && decide (1 ≤ c.missLimit) &&
    decide (c.missLimit ≤ 15) && decide (c.slot ≤ 15) &&
    match c.kind with
    | .window => lessEq c.signed c.a c.b
    | .pattern => c.b &&& c.a == c.b
    | .delta => true

/-- The configuration that the 12 bytes from operand byte `at_` on encode; none when a check of R56 fails. -/
def configOf (operands : List Byte) (at_ : Nat) : Option EntryConfig :=
  let byte := fun k => operand operands (at_ + k)
  match templateOf (bitsOf (byte 3) 0 2), reactionOf (bitsOf (byte 3) 2 3) with
  | some kind, some reaction =>
    let c : EntryConfig :=
      { source := byte 0, channel := byte 1, offset := bitsOf (byte 2) 0 6, wide := (byte 2).getLsbD 6,
        signed := (byte 2).getLsbD 7, kind := kind, a := wordOf (byte 4) (byte 5), b := wordOf (byte 6) (byte 7),
        deglitch := (byte 8).toNat, period := (byte 9).toNat, missLimit := (byte 10).toNat, reaction := reaction,
        latch := (byte 3).getLsbD 5, slot := (byte 11).toNat }
    if c.legal then some c else none
  | _, _ => none

/-! ### The entry image (R189) -/

/-- The trial incomplete flag, clear when the results are absent. -/
def Live.trialIncomplete (l : Live) : Bool :=
  match l.trial with
  | some t => t.incomplete
  | none => false

/-- Bytes 19 to 23 of the entry image. -/
def Live.trialBytes (l : Live) : List Byte :=
  match l.trial with
  | some t => wordBytes (BitVec.ofNat 16 t.seen) ++ wordBytes (BitVec.ofNat 16 t.nonconforming) ++ [byteOf t.longestRun]
  | none => [0#8, 0#8, 0#8, 0#8, 0#8]

/-- The 24 bytes of an entry image. -/
def Entry.image (e : Entry) : List Byte :=
  [fieldAt e.state.code 0 ||| fieldAt e.live.condition.code 2 ||| bitAt e.live.recovered 4 |||
      fieldAt e.live.timing.code 5 ||| bitAt e.live.trial.isSome 7,
    e.config.source, e.config.channel, e.config.fieldByte,
    e.config.kindByte ||| bitAt e.live.previous.isSome 6 ||| bitAt e.live.trialIncomplete 7] ++
  wordBytes e.config.a ++ wordBytes e.config.b ++
  [fieldAt e.config.deglitch 4 ||| byteOf e.live.run, byteOf e.config.period,
    fieldAt e.config.missLimit 4 ||| byteOf e.live.miss, byteOf e.live.since, byteOf e.config.slot] ++
  wordBytes (e.live.previous.getD 0#16) ++ [byteOf e.live.trips] ++ wordBytes (BitVec.ofNat 16 e.live.nonconforming) ++
  e.live.trialBytes

/-! ### Incident item, capture image, status report, notice payload (R188, R190, R191) -/

/-- The 6 bytes of an incident. -/
def Incident.item (x : Incident) : List Byte :=
  [x.sequence, fieldAt x.kind.code 0 ||| bitAt x.entry.isSome 6 ||| bitAt x.value.isSome 7, byteOf (x.entry.getD 0), x.train] ++
  wordBytes (x.value.getD 0#16)

/-- The 5+L bytes of a capture image. -/
def DataRecord.captureImage (d : DataRecord) (train : Byte) : List Byte :=
  [byteOf d.payload.length, d.source, d.channel, d.flags, train] ++ d.payload

/-- The 20 bytes of the READ STATUS report. -/
def State.statusReport (s : State) : List Byte :=
  [byteOf s.link.mode.code, byteOf s.link.pendingMode.code, byteOf s.link.pendingMode.held, flagByte s.reaction.isolated,
    s.alert.factorSet,
    fieldAt s.alert.levels.trip 0 ||| fieldAt s.alert.levels.stale 2 ||| fieldAt s.alert.levels.link 4 |||
      fieldAt s.alert.levels.qfull 6,
    fieldAt s.alert.levels.slot 0 ||| fieldAt s.alert.levels.isol 2 ||| fieldAt s.alert.levels.opdone 4,
    byteOf s.alert.threshold, bitAt s.alert.noticeEnable 0 ||| bitAt s.alert.noticeWaiting 1,
    byteOf s.queue.items.length, byteOf s.op.slot.code, byteOf s.op.pendingAbort.code,
    fieldAt s.op.last.kind.code 0 ||| fieldAt s.op.last.cause.code 2, s.op.last.byte1, s.op.last.byte2, s.op.last.byte3] ++
  wordBytes (BitVec.ofNat 16 s.op.fifo.length) ++ [byteOf s.table.w0, byteOf s.table.w1]

/-- The sequence number of the newest incident, 0 when the queue is empty (R143). -/
def IncidentQueue.newest (q : IncidentQueue) : Byte :=
  match q.items.getLast? with
  | some x => x.sequence
  | none => 0#8

/-- The notice the Alert Unit writes, from the part's state as it stands (R143, R188). -/
def State.noticeRecord (s : State) : WireRecord :=
  { kind := .notice, fixed1 := byteOf (s.position.getD 0), fixed2 := s.framer.sequence,
    fixed3 := byteOf s.alert.noticeCause.code,
    payload := [s.alert.factorSet, byteOf s.queue.items.length, s.queue.newest, byteOf s.op.slot.code,
      flagByte s.reaction.isolated] }

end Sys2Proof.Machine
end

