-- ==== Sys2Proof/Machine/Operation.lean ====
section
/-! DEFINITION. The Operation Unit: the end of a long operation, the capture's matches and the counts of train ends (09). -/

namespace Sys2Proof.Machine

/-! ### The end of an operation (R63, R170, R171) -/

/-- What the end of a trial leaves of its results (R63). -/
inductive TrialLeave
  | complete
  | incomplete
  | absent
  deriving DecidableEq, Repr

/-- The trial results as the end leaves them. -/
def TrialLeave.results (how : TrialLeave) (t : Option TrialResults) : Option TrialResults :=
  match how with
  | .complete => t.map fun r => { r with incomplete := false }
  | .incomplete => t.map fun r => { r with incomplete := true }
  | .absent => none

/-- The entry leaves TRIAL: LOADED, CONFORMING, run 0, recovered clear, previous value absent (R63). -/
def Entry.leaveTrial (how : TrialLeave) (e : Entry) : Entry :=
  { e with
    state := .loaded
    live := { e.live with
      condition := .conforming
      recovered := false
      run := 0
      previous := none
      trial := how.results e.live.trial } }

/-- The last-operation result of a capture (R170). -/
def CaptureFields.result (c : CaptureFields) (cause : EndCause) : LastResult :=
  { kind := .capture, cause := cause, byte1 := byteOf c.matched, byte2 := byteOf c.lost, byte3 := byteOf c.stored }

/-- The last-operation result of a trial (R170). -/
def TrialFields.result (t : TrialFields) (cause : EndCause) : LastResult :=
  { kind := .trial, cause := cause, byte1 := byteOf t.entry, byte2 := byteOf t.counted, byte3 := byteOf t.limit }

/-- The slot becomes IDLE with a result written and the pending abort discarded (R171, steps 1, 3 and 4). -/
def OperationUnit.finish (result : LastResult) (o : OperationUnit) : OperationUnit :=
  { o with last := result, pendingAbort := .none, slot := .idle }

/-- The end of the running operation but for OPDONE (R171, steps 1 to 4); nothing when the slot is IDLE. -/
def State.closeOperation (cause : EndCause) (how : TrialLeave) (s : State) : State :=
  match s.op.slot with
  | .idle => s
  | .capture c => { s with op := s.op.finish (c.result cause) }
  | .trial t =>
    let s' := s.updateEntry t.entry (Entry.leaveTrial how)
    { s' with op := s.op.finish (t.result cause), trialStreak := 0 }

/-- The end of the running operation with OPDONE raised (R130, R171); nothing when the slot is IDLE. -/
def State.endOperation (cause : EndCause) (how : TrialLeave) (s : State) : State :=
  if s.op.slot.isIdle then s else (s.closeOperation cause how).raise .opdone

/-- The end ABORTED, with OPDONE, of ABORT NOW and of a pending abort that acts (R180, R181). -/
def State.abortOperation (s : State) : State := s.endOperation .aborted .incomplete

/-- A pending AT-TRIP abort acts at a trip (R180). -/
def State.tripAbort (s : State) : State := if s.op.pendingAbort == .atTrip then s.abortOperation else s

/-- A pending AT-TRAIN abort acts at a train start in the path (R181). -/
def State.trainAbort (s : State) : State := if s.inPath && s.op.pendingAbort == .atTrain then s.abortOperation else s

/-! ### Capture (R173, R174) -/

/-- The record is one the running capture takes (R173). -/
def CaptureFields.takes (c : CaptureFields) (d : DataRecord) : Bool :=
  d.source == c.source && (c.channelAny || d.channel == c.channel)

/-- A match is counted, its image stored whole if it fits and otherwise lost (R174, steps 1 to 4). -/
def OperationUnit.countMatch (c : CaptureFields) (d : DataRecord) (train : Byte) (o : OperationUnit) : OperationUnit :=
  let c := { c with matched := c.matched + 1, without := 0 }
  if d.payload.length + 5 ≤ Config.captureCapacity - o.fifo.length then
    { o with slot := .capture { c with stored := c.stored + 1 }, fifo := o.fifo ++ d.captureImage train }
  else { o with slot := .capture { c with lost := saturate 255 c.lost } }

/-- The match that brings the count to K ends the capture DONE (R174, step 5). -/
def State.captureRecord (d : DataRecord) (s : State) : State :=
  match s.op.slot with
  | .capture c =>
    if c.takes d then
      let s' := { s with op := s.op.countMatch c d s.framer.sequence }
      if c.matched + 1 = c.wanted then s'.endOperation .done .complete else s'
    else s
  | _ => s

/-! ### Counted train ends (R175, R178) -/

/-- A train end in the path during a capture: one more train without a match, and TIMEOUT at the limit (R175). -/
def State.captureTrainEnd (s : State) : State :=
  match s.op.slot with
  | .capture c =>
    let s' := { s with op := { s.op with slot := .capture { c with without := c.without + 1 } } }
    if c.without + 1 = c.limit then s'.endOperation .timeout .complete else s'
  | _ => s

/-- A counted train end during a trial: one more train, and DONE at the limit (R178). -/
def State.trialTrainEnd (s : State) : State :=
  match s.op.slot with
  | .trial t =>
    let s' := { s with op := { s.op with slot := .trial { t with counted := t.counted + 1 } } }
    if t.counted + 1 = t.limit then s'.endOperation .done .complete else s'
  | _ => s

end Sys2Proof.Machine
end

