-- ==== Sys2Proof/Machine/Watch.lean ====
section
/-! DEFINITION. The Arrival Monitor: the timing update at a counted train end (05). -/

namespace Sys2Proof.Machine

/-- The entry is timed: ARMED with P above 0 (R94, R99). -/
def Entry.timed (e : Entry) : Bool := e.state == .armed && decide (0 < e.config.period)

/-- The next counted train end completes a period of the entry (R95). -/
def Entry.periodDue (e : Entry) : Bool :=
  e.timed && e.live.timing != .stale && decide (e.live.since + 1 = e.config.period)

/-- The next counted train end makes the entry STALE (R95, last line). -/
def Entry.staleDue (e : Entry) : Bool := e.periodDue && decide (e.live.miss + 1 = e.config.missLimit)

/-- The update of one entry at a counted train end (R95). -/
def Entry.timingUpdate (e : Entry) : Entry :=
  if e.staleDue then { e with live := { e.live with since := 0, miss := e.config.missLimit, timing := .stale } }
  else if e.periodDue then { e with live := { e.live with since := 0, miss := e.live.miss + 1, timing := .late } }
  else if e.timed && e.live.timing != .stale then { e with live := { e.live with since := e.live.since + 1 } }
  else e

/-- The update of entry i; an entry that becomes STALE queues its incident and then raises STALE (R96). -/
def State.timeEntry (i : Nat) (s : State) : State :=
  let s' := s.updateEntry i Entry.timingUpdate
  if (s.entry i).staleDue then (s'.pushIncident .stale (some i) none).raise .stale else s'

/-- The entries from index i on, n of them, in ascending order. -/
def State.timeEntriesFrom : Nat → Nat → State → State
  | 0, _, s => s
  | n + 1, i, s => State.timeEntriesFrom n (i + 1) (s.timeEntry i)

/-- The timing update of a counted train end: entries 0 to 63 in ascending order (R94). -/
def State.timingUpdate (s : State) : State := State.timeEntriesFrom Config.entries 0 s

end Sys2Proof.Machine
end

