-- ==== Sys2Proof/Machine/Judge.lean ====
section
/-! DEFINITION. The Record Judge: lookup, field extraction, templates, the condition, trips, the good-payload store, the trial variant (04). -/

namespace Sys2Proof.Machine

/-! ### The watched field and the templates -/

/-- The value of the watched field; none when the record is SHORT (R45, R73). -/
def EntryConfig.value (c : EntryConfig) (payload : List Byte) : Option Word :=
  if payload.length < c.offset + c.width then none
  else
    let first := payload.getD c.offset 0#8
    if c.wide then some (wordOf first (payload.getD (c.offset + 1) 0#8))
    else if c.signed then some (first.signExtend 16)
    else some (first.zeroExtend 16)

/-- A 16-bit quantity as a number of the entry's signedness (R46). -/
def numberOf (signed : Bool) (w : Word) : Int := if signed then w.toInt else w.toNat

/-- Whether a value conforms to the template, given the previous value (R74, R75, R76). -/
def EntryConfig.conforms (c : EntryConfig) (previous : Option Word) (v : Word) : Bool :=
  match c.kind with
  | .window => lessEq c.signed c.a v && lessEq c.signed v c.b
  | .pattern => v &&& c.a == c.b
  | .delta =>
    match previous with
    | none => true
    | some p => decide (((numberOf c.signed v - numberOf c.signed p).natAbs : Int) ≤ numberOf c.signed c.a)

/-- What the judgement makes of the record (R85). -/
inductive Verdict
  | conforming
  | nonconforming
  | short
  deriving DecidableEq, Repr

/-- The verdict on a record for an entry: SHORT, or the template's answer (R73 to R76). -/
def Entry.verdict (e : Entry) (payload : List Byte) : Verdict :=
  match e.config.value payload with
  | none => .short
  | some v => if e.config.conforms e.live.previous v then .conforming else .nonconforming

/-- The record conforms. -/
def Verdict.ok (v : Verdict) : Bool := v == .conforming

/-! ### The steps of judgement on the live fields -/

/-- Step 1: the timing fields back to FRESH (R72). -/
def Live.refreshed (l : Live) : Live := { l with timing := .fresh, since := 0, miss := 0 }

/-- Step 4: the DELTA memory takes each value formed (R76). -/
def Live.remember (kind : Template) (v : Option Word) (l : Live) : Live :=
  match kind, v with
  | .delta, some w => { l with previous := some w }
  | _, _ => l

/-- Step 5: the nonconforming count (R77). -/
def Live.countNonconforming (ok : Bool) (l : Live) : Live :=
  if ok then l else { l with nonconforming := saturate 65535 l.nonconforming }

/-- The condition table of 04, section 4.3 (R78 to R80), without the actions that go with it. -/
def Live.moveCondition (d : Nat) (ok : Bool) (l : Live) : Live :=
  match l.condition, ok with
  | .tripped, true => { l with recovered := true }
  | .tripped, false => { l with recovered := false }
  | _, true => { l with condition := .conforming, run := 0, recovered := false }
  | _, false =>
    if l.run + 1 < d then { l with condition := .suspect, run := l.run + 1, recovered := false }
    else { l with condition := .tripped, run := d, recovered := false }

/-- The record moves the entry into TRIPPED (R82). -/
def Live.tripsNow (d : Nat) (ok : Bool) (l : Live) : Bool :=
  l.condition != .tripped && (l.moveCondition d ok).condition == .tripped

/-- Trip action 2: the trip count (R82). -/
def Live.countTrip (trips : Bool) (l : Live) : Live := if trips then { l with trips := saturate 255 l.trips } else l

/-- The live fields of an ARMED entry after a judged record: steps 1 to 6 (04, section 4.2). -/
def Entry.judgedLive (e : Entry) (payload : List Byte) : Live :=
  let ok := (e.verdict payload).ok
  let l := ((e.live.refreshed.remember e.config.kind (e.config.value payload)).countNonconforming ok)
  (l.moveCondition e.config.deglitch ok).countTrip (l.tripsNow e.config.deglitch ok)

/-- Whether this record trips the entry. -/
def Entry.tripsOn (e : Entry) (payload : List Byte) : Bool :=
  e.live.tripsNow e.config.deglitch (e.verdict payload).ok

/-- Whether this record recovers the entry: it conforms, and the entry is TRIPPED with recovered clear (R80, R87). -/
def Entry.recoversOn (e : Entry) (payload : List Byte) : Bool :=
  e.live.condition == .tripped && (e.verdict payload).ok && !e.live.recovered

/-- Whether the good-payload store acts for this record (R84). -/
def Entry.storesOn (e : Entry) (payload : List Byte) : Bool :=
  e.config.reaction == .substitute && (e.verdict payload).ok && e.live.condition != .tripped

/-- The trial counts, updated after the condition has moved (R89). -/
def TrialResults.count (ok : Bool) (streak : Nat) (t : TrialResults) : TrialResults :=
  { t with
    seen := saturate 65535 t.seen
    nonconforming := if ok then t.nonconforming else saturate 65535 t.nonconforming
    longestRun := if t.longestRun < streak then streak else t.longestRun }

/-- The live fields of the entry in TRIAL after a judged record (R88, R89). -/
def Entry.trialLive (e : Entry) (streak : Nat) (payload : List Byte) : Live :=
  let ok := (e.verdict payload).ok
  let l := (e.live.remember e.config.kind (e.config.value payload)).moveCondition e.config.deglitch ok
  { l with trial := l.trial.map (TrialResults.count ok streak) }

/-! ### Judgement -/

/-- The judgement outcome that goes to the Reaction Unit (R85). -/
inductive Outcome
  | noEntry
  | trial (entry : Nat)
  | armed (entry : Nat) (verdict : Verdict) (condition : Condition) (reaction : Reaction) (latch : Bool) (slot : Nat)
  deriving DecidableEq, Repr

/-- The lookup by key: the ARMED or TRIAL entry that holds it (R59, R70). -/
def State.lookup (s : State) (source channel : Byte) : Option Nat :=
  s.table.entries.findIdx? fun e => e.working && e.hasKey source channel

/-- Trip action 5: an ISOLATE entry brings isolation into force in ACTIVE (R82, R116). -/
def State.tripIsolation (r : Reaction) (s : State) : State :=
  if r == .isolate && s.link.mode == .active && !s.reaction.isolated then s.enterIsolation else s

/-- Trip actions 3 to 6, in order (R82). -/
def State.tripActions (i : Nat) (r : Reaction) (v : Option Word) (s : State) : State :=
  ((((s.pushIncident .trip (some i) v).raise .trip).tripIsolation r).tripAbort)

/-- Full judgement for an ARMED entry (R72 to R87). -/
def State.judgeArmed (i : Nat) (d : DataRecord) (s : State) : State :=
  let e := s.entry i
  let s' := s.updateEntry i fun x => { x with live := e.judgedLive d.payload }
  if e.tripsOn d.payload then s'.tripActions i e.config.reaction (e.config.value d.payload)
  else if e.recoversOn d.payload then s'.pushIncident .recover (some i) (e.config.value d.payload)
  else if e.storesOn d.payload then s'.fillSlot e.config.slot d.payload
  else s'

/-- The trial streak after a judged record (R89). -/
def nextStreak (ok : Bool) (streak : Nat) : Nat := if ok then 0 else saturate 255 streak

/-- The trial variant of judgement (R88, R89). -/
def State.judgeTrial (i : Nat) (d : DataRecord) (s : State) : State :=
  let e := s.entry i
  let streak := nextStreak (e.verdict d.payload).ok s.trialStreak
  let s' := s.updateEntry i fun x => { x with live := e.trialLive streak d.payload }
  { s' with trialStreak := streak }

/-- The judgement of a record in a train with FREEZE clear: the state after it (R70). -/
def State.judge (d : DataRecord) (s : State) : State :=
  match s.lookup d.source d.channel with
  | none => s
  | some i => if (s.entry i).state == .trial then s.judgeTrial i d else s.judgeArmed i d

/-- The outcome of that judgement, from the state before it (R85). -/
def State.judgeOutcome (d : DataRecord) (s : State) : Outcome :=
  match s.lookup d.source d.channel with
  | none => .noEntry
  | some i =>
    let e := s.entry i
    if e.state == .trial then .trial i
    else .armed i (e.verdict d.payload) (e.judgedLive d.payload).condition e.config.reaction e.config.latch e.config.slot

end Sys2Proof.Machine
end

