-- ==== Sys2Proof/Machine/React.lean ====
section
/-! DEFINITION. The Reaction Unit: the fate of a data record and its rewrite in the Delay Line (06), and the completion of a data record. -/

namespace Sys2Proof.Machine

/-- A reaction applies: the entry is TRIPPED after the judgement, and the record is nonconforming or the latch is set (R107). -/
def reactionApplies (verdict : Verdict) (condition : Condition) (latch : Bool) : Bool :=
  condition == .tripped && (!verdict.ok || latch)

/-- What becomes of a record (R106). -/
inductive Fate
  | pass
  | blank
  | mark
  | substitute (slot : Nat)
  deriving DecidableEq, Repr

/-- The fate a reaction gives (R110 to R115). DROP, and ISOLATE without isolation, blank the record. -/
def Reaction.fate (r : Reaction) (slot : Nat) : Fate :=
  match r with
  | .pass => .pass
  | .mark => .mark
  | .substitute => .substitute slot
  | .drop => .blank
  | .isolate => .blank

/-- The fate the outcome of the judgement asks for when isolation does not blank (R106, last two lines). -/
def Outcome.fate (o : Outcome) : Fate :=
  match o with
  | .armed _ verdict condition reaction latch slot =>
    if reactionApplies verdict condition latch then reaction.fate slot else .pass
  | .trial _ => .pass
  | .noEntry => .pass

/-- The fate of a record: the first line of R106's table that applies. -/
def State.fate (o : Outcome) (s : State) : Fate :=
  if s.framer.freezeFlag then .pass
  else if s.link.mode == .observe then .pass
  else if s.reaction.isolated then .blank
  else o.fate

/-- The record with MARKED set (R111, R188). -/
def DataRecord.marked (d : DataRecord) : DataRecord := { d with flags := d.flags ||| 1#8 }

/-- The record with a stored payload and SUBSTITUTED set (R112, R188). -/
def DataRecord.substituted (d : DataRecord) (content : List Byte) : DataRecord :=
  { d with flags := d.flags ||| 2#8, payload := content }

/-- The slot can serve the record: it holds a payload of the record's length (R112, R113). -/
def slotServes (content : List Byte) (d : DataRecord) : Bool := !content.isEmpty && content.length == d.payload.length

/-- The record SUBSTITUTE sends on: substituted, or marked when the slot cannot serve it (R112, R113). -/
def State.substituteFor (slot : Nat) (d : DataRecord) (s : State) : DataRecord :=
  if slotServes (s.slotContent slot) d then d.substituted (s.slotContent slot) else d.marked

/-- The rewrite that carries out a fate, in place (R109). -/
def State.carryOut (f : Fate) (d : DataRecord) (s : State) : State :=
  match f with
  | .pass => s
  | .blank => s.blankNewest (d.payload.length + 7)
  | .mark => s.rewriteRecord d.marked.wire
  | .substitute slot => s.rewriteRecord (s.substituteFor slot d).wire

/-- The Reaction Unit's whole action on a record (R106). -/
def State.react (o : Outcome) (d : DataRecord) (s : State) : State := s.carryOut (s.fate o) d

/-- The completion of a valid data record in a readable train: the capture first, then the judgement, then the reaction
(R69, R71, R83, R106). In a FREEZE train only the capture acts. Nothing acts on it while the part is bypassed (R28). -/
def State.completeData (d : DataRecord) (s : State) : State :=
  if s.inPath then
    let s := s.captureRecord d
    if s.framer.freezeFlag then s
    else (s.judge d).react (s.judgeOutcome d) d
  else s

end Sys2Proof.Machine
end

