-- ==== Sys2Proof/Machine/LinkControl.lean ====
section
/-! DEFINITION. The Link Controller and the Slot Claimer: joining, leaving, the pending mode, the drain, the slot claim, train starts and ends (02). -/

namespace Sys2Proof.Machine

/-! ### Small moves -/

/-- ACQUIRE with clean count 0. -/
def Link.toAcquire (l : Link) : Link := { l with state := .acquire, cleanCount := 0 }

/-- The part joins the path: INLINE, 64 FILL loaded, the bypass switch open (R31). -/
def State.join (s : State) : State :=
  { s with link := { s.link with state := .inline, bypassClosed := false }, delay := fillDelay }

/-- A stray symbol outside a train, as the Link Controller takes it (R29, R30). -/
def Link.stray (l : Link) : Link :=
  match l.state with
  | .acquire => { l with cleanCount := 0 }
  | .joinWait => l.toAcquire
  | _ => l

/-! ### The pending mode (R37, R38) -/

/-- An applied OBSERVE or ACTIVE; in LEAVE-WAIT it cancels the leave. -/
def Link.applyMode (m : Mode) (l : Link) : Link :=
  match l.state with
  | .leaveWait => { l with mode := m, state := .inline, heldCount := 0, pendingMode := .none }
  | _ => { l with mode := m, pendingMode := .none }

/-- An applied BYPASS; discarded when an operation runs. -/
def Link.applyBypass (h : Nat) (idle : Bool) (l : Link) : Link :=
  if idle then { l with state := .leaveWait, heldCount := h, pendingMode := .none } else { l with pendingMode := .none }

/-- The pending mode applied at a train end, then none (R38). A bypassed part holds none (log 24). -/
def Link.applyPending (idle : Bool) (l : Link) : Link :=
  if l.state.inPath then
    match l.pendingMode with
    | .none => l
    | .observe => l.applyMode .observe
    | .active => l.applyMode .active
    | .bypass h => l.applyBypass h idle
  else { l with pendingMode := .none }

def State.applyPendingMode (s : State) : State := { s with link := s.link.applyPending s.op.slot.isIdle }

/-! ### The train end as a bypassed part's controller takes it (R29, R30, R35) -/

/-- ACQUIRE counts consecutive clean train ends (R29). -/
def Link.countClean (clean : Bool) (l : Link) : Link :=
  if clean then
    if l.cleanCount + 1 = 2 then { l with state := .joinWait, cleanCount := 0 }
    else { l with cleanCount := l.cleanCount + 1 }
  else { l with cleanCount := 0 }

/-- HELD counts train ends down; at 0 the link state becomes ACQUIRE (R35). -/
def Link.countHeld (l : Link) : Link :=
  if l.heldCount = 0 then l
  else if l.heldCount = 1 then { l.toAcquire with heldCount := 0 }
  else { l with heldCount := l.heldCount - 1 }

/-- JOIN-WAIT at a train end: TE brings the part in unless it drains; a break returns it to ACQUIRE (R30, R31). -/
def State.joinWaitEnd (byTe : Bool) (s : State) : State :=
  if byTe then (if s.link.draining then s else s.join) else { s with link := s.link.toAcquire }

/-- The Link Controller at a train end, by the link state as it stood before the end. -/
def State.linkTrainEnd (before : LinkState) (byTe clean : Bool) (s : State) : State :=
  match before with
  | .acquire => { s with link := s.link.countClean clean }
  | .joinWait => s.joinWaitEnd byTe
  | .held => { s with link := s.link.countHeld }
  | .inline => s.applyPendingMode
  | .leaveWait => s.applyPendingMode

/-! ### The train end event (R21, R102, R137, R182) -/

/-- The blocks' counts and clear at a train end in the path: the timing update, the operations' counts, the header CLR, in
this order (R93, R102, R137, R175, R178, R182). -/
def State.trainEndInPath (s : State) : State :=
  let freeze := s.framer.freezeFlag
  let clr := s.framer.clrFlag
  let s := if freeze then s else s.timingUpdate
  let s := s.captureTrainEnd
  let s := if freeze then s else s.trialTrainEnd
  if clr then s.clear fullMask .allEntries else s

/-- The Framer with no train open; the train's number stays the current one (R5, R21). -/
def Framer.closed (f : Framer) : Framer :=
  { f with position := .outside, slotCount := 0, flags := 0#8, statusBytes := [], symbolCount := 0, strayReported := false }

/-- The position is cleared and the notice run is 0 (R39, R142). -/
def State.clearTrainMarks (s : State) : State :=
  { s with position := none, alert := { s.alert with noticeRun := 0 } }

/-- The train end event as every block takes it, and the Framer after it. -/
def State.trainEnd (byTe : Bool) (s : State) : State :=
  let before := s.link.state
  let clean := byTe && s.framer.readable && !s.framer.trainFaulted
  let s := if s.inPath then s.trainEndInPath else s
  let s := s.linkTrainEnd before byTe clean
  { s.clearTrainMarks with framer := s.framer.closed }

/-- A train end that the stream brings: its report of cause 3 or 4 comes first (R21, R22). -/
def State.endTrain (byTe : Bool) (s : State) : State :=
  let s :=
    if s.framer.readable then (if byTe then s else s.reportInPath 4)
    else s.reportInPath 3
  s.trainEnd byTe

/-! ### The train start event (R13, R39, R142, R181) -/

/-- The Framer at a TS that opens a train: HEADER with byte 1 due, symbol count 1 (R13). -/
def Framer.opened (f : Framer) : Framer :=
  { f with
    position := .header 1, slotCount := 0, flags := 0#8, sequence := 0#8, statusBytes := [], symbolCount := 1
    trainFaulted := false, strayReported := false }

def State.openTrain (s : State) : State :=
  ({ s.clearTrainMarks with framer := s.framer.opened }).trainAbort

/-! ### The header read event (R7, R35, R39, R40) -/

/-- The slot claimed: the first that holds 255, counted from 0 (R39). -/
def firstEmptySlot (statusBytes : List Byte) : Option Nat := statusBytes.findIdx? fun b => b == 255#8

/-- The Slot Claimer: the status byte over the claimed slot, at place N-k+1; without an empty slot the part is unplaced and
SLOT is raised (R39, R40). -/
def State.claimSlot (s : State) : State :=
  match firstEmptySlot s.framer.statusBytes with
  | some k =>
    { s with
      position := some (k + 1)
      delay := s.delay.set (s.framer.slotCount - (k + 1)) (.data s.statusByte) }
  | none => s.raise .slot

/-- The JOIN flag calls a HELD part back (R35). -/
def State.takeJoinFlag (s : State) : State :=
  if s.link.state == .held && s.framer.joinFlag then { s with link := { s.link.toAcquire with heldCount := 0 } } else s

/-- The header read event; the Framer is in BODY. -/
def State.headerRead (s : State) : State :=
  let s := { s with alert := { s.alert with noticeRun := 0 } }
  if s.inPath then s.claimSlot else s.takeJoinFlag

/-! ### Leaving the path (R32) -/

/-- The three conditions of R32 in LEAVE-WAIT. -/
def State.leaveDue (s : State) : Bool :=
  s.link.state == .leaveWait && !s.framer.trainOpen && s.delay == fillDelay && s.op.slot.isIdle

/-- After an arrival, a part in LEAVE-WAIT leaves if the conditions hold: the FILL are dropped, the switch closes, HELD. -/
def State.leaveIfDue (s : State) : State :=
  if s.leaveDue then { s with link := { s.link with state := .held, bypassClosed := true }, delay := [] } else s

/-! ### Loss of signal and the drain (R33, R34) -/

/-- A drain begins, with a TA to follow if a train was open (R34). -/
def Link.beginDrain (trainWasOpen : Bool) (l : Link) : Link := { l with draining := true, drainTa := trainWasOpen }

/-- The loss-of-signal event at the Link Controller (R33). -/
def Link.loseSignal (trainWasOpen : Bool) (l : Link) : Link :=
  match l.state with
  | .acquire => { l with cleanCount := 0 }
  | .joinWait => l.toAcquire
  | .inline => (l.beginDrain trainWasOpen).toAcquire
  | .leaveWait => { l.beginDrain trainWasOpen with state := .held }
  | .held => l

/-- What a drain has still to send, in order: the held symbols, oldest first, and the TA if one is due (R34). -/
def State.drainRest (s : State) : List Symbol := s.delay.reverse ++ (if s.link.drainTa then [.ta] else [])

/-- The drain is over: the switch closes and the Delay Line holds nothing (R34). -/
def State.drainOver (s : State) : State :=
  { s with link := { s.link with bypassClosed := true, draining := false, drainTa := false }, delay := [] }

/-- The rest of the drain leaves DN at once (R34). -/
def State.finishDrain (s : State) : State := (s.emit (s.drainRest.map .readable)).drainOver

/-- One symbol time of a drain: the oldest held symbol leaves, or the TA; after the last of them the drain is over (R34). -/
def State.drainTick (s : State) : State :=
  match s.delay.getLast? with
  | some x =>
    let s' := (s.emit [.readable x])
    let s' := { s' with delay := s.delay.dropLast }
    if s'.delay.isEmpty && !s'.link.drainTa then s'.drainOver else s'
  | none => s.finishDrain

/-- The declaration of a loss of signal: the report of cause 5, the end of an open train without a report, the loss-of-signal
event (R23). A record in progress is dropped with its train. -/
def State.declareLoss (s : State) : State :=
  let wasOpen := s.framer.trainOpen
  let s := { s with framer := { s.framer with signal := .lost, silence := Config.silenceLimit } }
  let s := s.report 5
  let s := if wasOpen then s.trainEnd false else s
  { s with link := s.link.loseSignal wasOpen }

end Sys2Proof.Machine
end

