-- ==== Sys2Proof/Machine/Restart.lean ====
section
/-! DEFINITION. What the two scopes of RESTART and what every reset set (R67, R68, R121, R145, R183, R184). -/

namespace Sys2Proof.Machine

/-- RESTART WARM of one entry that is ARMED (R67); a trial's entry has left TRIAL with the operation's end. -/
def Entry.restartWarm (e : Entry) : Entry :=
  if e.state == .armed then
    { e with
      live := { e.live with
        condition := .conforming
        recovered := false
        run := 0
        timing := .fresh
        since := 0
        miss := 0 } }
  else e

/-- The Capture FIFO emptied (R183). -/
def State.emptyFifo (s : State) : State := { s with op := { s.op with fifo := [] } }

/-- The Alert Unit's part of a restart: flags clear, no notice waiting; the queue empty, its counter kept (R145). -/
def State.restartAlerts (s : State) : State :=
  { s with
    alert := ({ s.alert with flags := noFlags, noticeWaiting := false }).settle
    queue := { s.queue with items := [] } }

/-- RESTART WARM, in the order of R145 and R183: the operation, isolation, the table, the FIFO, then the alerts. -/
def State.restartWarm (s : State) : State :=
  let s := (s.closeOperation .aborted .absent).endIsolation
  let s := { s with table := { s.table with entries := s.table.entries.map Entry.restartWarm } }
  s.emptyFifo.restartAlerts

/-- RESTART TABLE: as RESTART WARM, with the table and the store emptied (R68, R123). -/
def State.restartTable (s : State) : State :=
  let s := (s.closeOperation .aborted .absent).endIsolation
  let s := { s with table := WatchTable.empty, reaction := { s.reaction with store := emptyStore } }
  s.emptyFifo.restartAlerts

/-- Power-on and RESETn: every block at its reset values at once, wherever the stream stands (R12, R24, R27, R39, R68, R121,
R123, R145, R184). The pins, the selected rate and the commands that wait are not the reset's. -/
def State.resetBlocks (s : State) : State :=
  { State.reset with powered := s.powered, resetnHigh := s.resetnHigh, rate := s.rate, dn := s.dn, pending := s.pending }

/-- The rate that the pins select (00 "Pins and package"). -/
def rateOf (rate0 rate1 : Bool) : Rate :=
  match rate0, rate1 with
  | false, false => .million10
  | true, false => .million25
  | false, true => .million50
  | true, true => .million100

end Sys2Proof.Machine
end

