-- ==== Sys2Proof/Machine/Engine.lean ====
section
/-! DEFINITION. The Request Engine: results and replies, the checks in their order, and the effect of each of the twenty requests (08, 09). -/

namespace Sys2Proof.Machine

/-- The result codes (R150). -/
inductive Result
  | ok
  | partially
  | badCode
  | badLength
  | badAddress
  | badValue
  | empty
  | entryBusy
  | keyTaken
  | slotTaken
  | partBusy
  | modeOrder
  | unread
  | isolated
  deriving DecidableEq, Repr

def Result.code : Result → Nat
  | .ok => 0
  | .partially => 1
  | .badCode => 2
  | .badLength => 3
  | .badAddress => 4
  | .badValue => 5
  | .empty => 6
  | .entryBusy => 7
  | .keyTaken => 8
  | .slotTaken => 9
  | .partBusy => 10
  | .modeOrder => 11
  | .unread => 12
  | .isolated => 13

/-- What a request comes to: its result, its reply data before the padding with zeros, and the state it leaves. -/
structure Response where
  result : Result
  data : List Byte
  state : State
  deriving DecidableEq, Repr

/-- A refused request changes no state (R150). -/
def refuse (result : Result) (data : List Byte) (s : State) : Response := { result := result, data := data, state := s }

/-- A request's effect when its address resolves; BAD-ADDRESS with data of zeros when it does not (R65, R150). -/
def withEntry (operands : List Byte) (s : State) (f : Nat → Response) : Response :=
  match s.resolve (operand operands 0) with
  | none => refuse .badAddress [] s
  | some i => f i

/-! ### Reading the part -/

/-- IDENTIFY (R152). -/
def reqIdentify (s : State) : Response :=
  { result := .ok
    data := wordBytes Config.vendorId ++ wordBytes Config.partId ++
      [Config.revision, byteOf Config.entries, byteOf Config.substitutionSlots, byteOf Config.incidentCapacity,
        byteOf (Config.captureCapacity / 8)]
    state := s }

/-- READ STATUS (R153). -/
def reqReadStatus (s : State) : Response := { result := .ok, data := s.statusReport, state := s }

/-- How many incidents TAKE INCIDENTS takes: the least of the depth, the room in L-2 bytes and a maximum above 0 (R154). -/
def takeCount (depth len maximum : Nat) : Nat :=
  let k := min depth ((len - 2) / 6)
  if maximum = 0 then k else min k maximum

/-- TAKE INCIDENTS (R140, R154). -/
def reqTakeIncidents (operands : List Byte) (s : State) : Response :=
  let depth := s.queue.items.length
  let maximum := operandNat operands 0
  let k := takeCount depth operands.length maximum
  { result := if k < depth ∧ (maximum = 0 ∨ k < maximum) then .partially else .ok
    data := [byteOf k, byteOf (depth - k)] ++ (s.queue.items.take k).flatMap Incident.item
    state := { s with queue := { s.queue with items := s.queue.items.drop k } } }

/-- READ ENTRY (R155). -/
def reqReadEntry (operands : List Byte) (s : State) : Response :=
  withEntry operands s fun i =>
    let count := operandNat operands 1
    if count = 1 then { result := .ok, data := (s.entry i).image, state := s }
    else if count = 2 then
      if operands.length < 48 ∨ i = 63 then { result := .partially, data := (s.entry i).image, state := s }
      else { result := .ok, data := (s.entry i).image ++ (s.entry (i + 1)).image, state := s }
    else refuse .badValue [] s

/-- READ SLOT (R156). -/
def reqReadSlot (operands : List Byte) (s : State) : Response :=
  let slot := operandNat operands 0
  if 15 < slot then refuse .badValue [] s
  else
    let content := s.slotContent slot
    { result := if operands.length - 1 < content.length then .partially else .ok
      data := byteOf content.length :: content.take (operands.length - 1)
      state := s }

/-! ### Alerts -/

/-- The nine alert settings in the form of SET ALERTS (R157). -/
def AlertUnit.settings (a : AlertUnit) : List Byte :=
  [byteOf a.levels.trip, byteOf a.levels.stale, byteOf a.levels.link, byteOf a.levels.qfull, byteOf a.levels.slot,
    byteOf a.levels.isol, byteOf a.levels.opdone, byteOf a.threshold, flagByte a.noticeEnable]

/-- The levels that the first seven operands of SET ALERTS give. -/
def levelsOf (operands : List Byte) : PerFactor Nat :=
  { trip := operandNat operands 0, stale := operandNat operands 1, link := operandNat operands 2, qfull := operandNat operands 3,
    slot := operandNat operands 4, isol := operandNat operands 5, opdone := operandNat operands 6 }

/-- All seven levels are 0 to 3 (R131). -/
def levelsLegal (l : PerFactor Nat) : Bool := allFactors.all fun f => decide (l.get f ≤ 3)

/-- The alert settings written together; a disable cancels a waiting notice (R131). -/
def AlertUnit.adopt (levels : PerFactor Nat) (threshold : Nat) (enable : Bool) (a : AlertUnit) : AlertUnit :=
  ({ a with
    levels := levels, threshold := threshold, noticeEnable := enable
    noticeWaiting := a.noticeWaiting && enable }).settle

/-- SET ALERTS (R131, R157). -/
def reqSetAlerts (operands : List Byte) (s : State) : Response :=
  let levels := levelsOf operands
  let threshold := operandNat operands 7
  if levelsLegal levels && decide (1 ≤ threshold) && decide (threshold ≤ 3) then
    { result := .ok
      data := s.alert.settings
      state := { s with alert := s.alert.adopt levels threshold ((operand operands 8).getLsbD 0) } }
  else refuse .badValue s.alert.settings s

/-- The factor mask of CLEAR ALERTS: bits 0 to 6, bit 7 ignored (R158, R190). -/
def maskOf (b : Byte) : PerFactor Bool :=
  { trip := b.getLsbD 0, stale := b.getLsbD 1, link := b.getLsbD 2, qfull := b.getLsbD 3, slot := b.getLsbD 4,
    isol := b.getLsbD 5, opdone := b.getLsbD 6 }

/-- A clear made by CLEAR ALERTS, with the factor set it leaves (R158). -/
def clearResponse (mask : PerFactor Bool) (scope : ClearScope) (s : State) : Response :=
  let s' := s.clear mask scope
  { result := .ok, data := [s'.alert.factorSet], state := s' }

/-- CLEAR ALERTS (R136, R158). -/
def reqClearAlerts (operands : List Byte) (s : State) : Response :=
  let mask := maskOf (operand operands 0)
  match operandNat operands 1 with
  | 0 => clearResponse mask .noEntry s
  | 1 =>
    match s.resolve (operand operands 2) with
    | none => refuse .badAddress [] s
    | some i => clearResponse mask (.oneEntry i) s
  | 2 => clearResponse mask .allEntries s
  | _ => refuse .badValue [] s

/-! ### The table and the store -/

/-- SET WINDOWS (R64, R159). -/
def reqSetWindows (operands : List Byte) (s : State) : Response :=
  let before := [byteOf s.table.w0, byteOf s.table.w1]
  let w0 := operandNat operands 0
  let w1 := operandNat operands 1
  if w0 ≤ 7 ∧ w1 ≤ 7 then
    { result := .ok, data := before, state := { s with table := { s.table with w0 := w0, w1 := w1 } } }
  else refuse .badValue before s

/-- A LOADED entry with this configuration and the starting values (R57). -/
def Entry.loadedWith (c : EntryConfig) : Entry := { state := .loaded, config := c, live := Live.starting }

/-- LOAD ENTRY (R56, R57, R160). -/
def reqLoadEntry (operands : List Byte) (s : State) : Response :=
  withEntry operands s fun i =>
    let before := (s.entry i).config.toBytes
    if (s.entry i).working then refuse .entryBusy before s
    else
      match configOf operands 1 with
      | none => refuse .badValue before s
      | some c => { result := .ok, data := before, state := s.updateEntry i fun _ => Entry.loadedWith c }

/-- The reply data of ARM, DISARM, FREE and START TRIAL: the index and the entry's state after the request (R161). -/
def entryReply (i : Nat) (s : State) : List Byte := [byteOf i, byteOf (s.entry i).state.code]

/-- Refuses with the reply data of ARM. -/
def refuseEntry (result : Result) (i : Nat) (s : State) : Response := refuse result (entryReply i s) s

/-- Accepts with the reply data of ARM, from the state after the request. -/
def acceptEntry (i : Nat) (s : State) : Response := { result := .ok, data := entryReply i s, state := s }

/-- Some entry other than i that p holds of. -/
def State.otherEntry (s : State) (i : Nat) (p : Entry → Bool) : Bool :=
  s.table.entries.zipIdx.any fun x => x.2 != i && p x.1

/-- Another working entry holds the key of entry i (R58, check 1). -/
def State.keyTaken (s : State) (i : Nat) : Bool :=
  s.otherEntry i fun e => e.working && e.hasKey (s.entry i).config.source (s.entry i).config.channel

/-- The entry is ARMED with reaction SUBSTITUTE and names this slot. -/
def Entry.fillsSlot (slot : Nat) (e : Entry) : Bool :=
  e.state == .armed && e.config.reaction == .substitute && e.config.slot == slot

/-- Another ARMED SUBSTITUTE entry names the slot of entry i, whose reaction is SUBSTITUTE (R58, check 2). -/
def State.slotTaken (s : State) (i : Nat) : Bool :=
  (s.entry i).config.reaction == .substitute && s.otherEntry i (Entry.fillsSlot (s.entry i).config.slot)

/-- ARMED with the starting values (R58). -/
def Entry.arm (e : Entry) : Entry := { e with state := .armed, live := Live.starting }

/-- ARM (R58, R161). -/
def reqArm (operands : List Byte) (s : State) : Response :=
  withEntry operands s fun i =>
    match (s.entry i).state with
    | .free => refuseEntry .empty i s
    | .trial => refuseEntry .entryBusy i s
    | .armed => acceptEntry i s
    | .loaded =>
      if s.keyTaken i then refuseEntry .keyTaken i s
      else if s.slotTaken i then refuseEntry .slotTaken i s
      else acceptEntry i (s.updateEntry i Entry.arm)

/-- LOADED, CONFORMING and FRESH; the counters and the previous value kept (R60). -/
def Entry.disarm (e : Entry) : Entry :=
  { e with
    state := .loaded
    live := { e.live with
      condition := .conforming
      recovered := false
      run := 0
      timing := .fresh
      since := 0
      miss := 0 } }

/-- DISARM (R60, R162). -/
def reqDisarm (operands : List Byte) (s : State) : Response :=
  withEntry operands s fun i =>
    match (s.entry i).state with
    | .free => refuseEntry .empty i s
    | .trial => refuseEntry .entryBusy i s
    | .loaded => acceptEntry i s
    | .armed => acceptEntry i (s.updateEntry i Entry.disarm)

/-- FREE (R61, R163). -/
def reqFree (operands : List Byte) (s : State) : Response :=
  withEntry operands s fun i =>
    match (s.entry i).state with
    | .free => acceptEntry i s
    | .loaded => acceptEntry i (s.updateEntry i fun _ => Entry.empty)
    | .armed => refuseEntry .entryBusy i s
    | .trial => refuseEntry .entryBusy i s

/-- LOAD SLOT (R124, R164; the reply data of its refusals is log 15). -/
def reqLoadSlot (operands : List Byte) (s : State) : Response :=
  let slot := operandNat operands 0
  let length := operandNat operands 1
  if 15 < slot then refuse .badValue [0#8] s
  else
    let before := [byteOf (s.slotContent slot).length]
    if Config.maxPayload < length then refuse .badValue before s
    else if operands.length < 2 + length then refuse .badLength before s
    else { result := .ok, data := before, state := s.fillSlot slot ((operands.drop 2).take length) }

/-! ### Mode, release and restart -/

/-- The reply data of SET MODE (R165). -/
def modeReply (s : State) : List Byte :=
  [byteOf s.link.mode.code, byteOf s.link.pendingMode.code, byteOf s.link.pendingMode.held]

/-- The pending mode stored (R37). -/
def acceptMode (m : PendingMode) (s : State) : Response :=
  let s' := { s with link := { s.link with pendingMode := m } }
  { result := .ok, data := modeReply s', state := s' }

/-- SET MODE (R37, R165). -/
def reqSetMode (operands : List Byte) (s : State) : Response :=
  match operandNat operands 0 with
  | 1 => acceptMode .observe s
  | 2 => acceptMode .active s
  | 3 =>
    if s.link.mode == .active then refuse .modeOrder (modeReply s) s
    else if s.reaction.isolated then refuse .modeOrder (modeReply s) s
    else if !s.op.slot.isIdle then refuse .partBusy (modeReply s) s
    else acceptMode (.bypass (operandNat operands 1)) s
  | _ => refuse .badValue (modeReply s) s

/-- RELEASE (R120, R166). -/
def reqRelease (s : State) : Response :=
  { result := .ok
    data := [flagByte s.reaction.isolated]
    state := if s.reaction.isolated then s.endIsolation else s }

/-- RESTART; the reply carries the scope operand (R167). -/
def reqRestart (operands : List Byte) (s : State) : Response :=
  let scope := operand operands 0
  match scope.toNat with
  | 0 => { result := .ok, data := [scope], state := s.restartWarm }
  | 1 => { result := .ok, data := [scope], state := s.restartTable }
  | _ => refuse .badValue [scope] s

/-! ### The long operations -/

/-- The number of bytes the Capture FIFO holds, as a 16-bit value. -/
def fifoCount (s : State) : List Byte := wordBytes (BitVec.ofNat 16 s.op.fifo.length)

/-- The fields of a capture that starts (R172). -/
def captureOf (operands : List Byte) : CaptureFields :=
  { source := operand operands 0, channel := operand operands 1, channelAny := (operand operands 2).getLsbD 0,
    wanted := operandNat operands 3, limit := operandNat operands 4, matched := 0, stored := 0, lost := 0, without := 0 }

/-- START CAPTURE (R172). -/
def reqStartCapture (operands : List Byte) (s : State) : Response :=
  let c := captureOf operands
  let discard := (operand operands 2).getLsbD 1
  if !s.op.slot.isIdle then refuse .partBusy (fifoCount s) s
  else if c.wanted = 0 ∨ 32 < c.wanted ∨ c.limit = 0 then refuse .badValue (fifoCount s) s
  else if !s.op.fifo.isEmpty && !discard then refuse .unread (fifoCount s) s
  else
    let s' := { s with
      op := { s.op with slot := .capture c, pendingAbort := .none, fifo := if discard then [] else s.op.fifo } }
    { result := .ok, data := fifoCount s', state := s' }

/-- READ CAPTURE (R176). -/
def reqReadCapture (operands : List Byte) (s : State) : Response :=
  let b := min s.op.fifo.length (operands.length - 3)
  let s' := { s with op := { s.op with fifo := s.op.fifo.drop b } }
  { result := if s'.op.fifo.isEmpty then .ok else .partially
    data := byteOf b :: fifoCount s' ++ s.op.fifo.take b
    state := s' }

/-- The entry goes on trial (R62). -/
def Entry.beginTrial (e : Entry) : Entry :=
  { e with
    state := .trial
    live := { e.live with
      condition := .conforming
      recovered := false
      run := 0
      previous := none
      trial := some { seen := 0, nonconforming := 0, longestRun := 0, incomplete := true } } }

/-- An ARMED entry holds the key of entry i (R177, check 6). -/
def State.keyArmed (s : State) (i : Nat) : Bool :=
  s.table.entries.any fun e => e.state == .armed && e.hasKey (s.entry i).config.source (s.entry i).config.channel

/-- START TRIAL (R62, R177). -/
def reqStartTrial (operands : List Byte) (s : State) : Response :=
  withEntry operands s fun i =>
    let limit := operandNat operands 1
    match (s.entry i).state with
    | .free => refuseEntry .empty i s
    | .armed => refuseEntry .entryBusy i s
    | .trial => refuseEntry .entryBusy i s
    | .loaded =>
      if !s.op.slot.isIdle then refuseEntry .partBusy i s
      else if limit = 0 then refuseEntry .badValue i s
      else if s.keyArmed i then refuseEntry .keyTaken i s
      else if s.reaction.isolated then refuseEntry .isolated i s
      else
        let s' := s.updateEntry i Entry.beginTrial
        acceptEntry i
          { s' with
            op := { s'.op with slot := .trial { entry := i, limit := limit, counted := 0 }, pendingAbort := .none }
            trialStreak := 0 }

/-- The reply data of ABORT: the slot before, the slot after, the pending abort after (R179). -/
def abortReply (before after : State) : List Byte :=
  [byteOf before.op.slot.code, byteOf after.op.slot.code, byteOf after.op.pendingAbort.code]

/-- An accepted ABORT. -/
def acceptAbort (before after : State) : Response := { result := .ok, data := abortReply before after, state := after }

/-- A pending abort stored while an operation runs; no effect on an idle slot (R179). -/
def State.storeAbort (p : PendingAbort) (s : State) : State :=
  if s.op.slot.isIdle then s else { s with op := { s.op with pendingAbort := p } }

/-- ABORT QUIET: the operation ends without OPDONE, and the OPDONE pending flag is cleared (R130, R179). -/
def State.abortQuietly (s : State) : State := (s.closeOperation .aborted .incomplete).clearFactor .opdone

/-- ABORT (R179). -/
def reqAbort (operands : List Byte) (s : State) : Response :=
  match operandNat operands 0 with
  | 1 => acceptAbort s s.abortOperation
  | 2 => acceptAbort s s.abortQuietly
  | 3 => acceptAbort s (s.storeAbort .atTrip)
  | 4 => acceptAbort s (s.storeAbort .atTrain)
  | _ => refuse .badValue (abortReply s s) s

/-! ### Codes, minimum lengths and the engine (R146 to R151) -/

/-- The twenty requests by their codes. -/
inductive RequestKind
  | identify
  | readStatus
  | setAlerts
  | clearAlerts
  | takeIncidents
  | setWindows
  | readEntry
  | loadEntry
  | arm
  | disarm
  | free
  | loadSlot
  | readSlot
  | setMode
  | release
  | restart
  | startCapture
  | readCapture
  | startTrial
  | abort
  deriving DecidableEq, Repr

/-- The request a code names; none outside 1 to 20 (R150). -/
def requestKind (code : Byte) : Option RequestKind :=
  match code.toNat with
  | 1 => some .identify
  | 2 => some .readStatus
  | 3 => some .setAlerts
  | 4 => some .clearAlerts
  | 5 => some .takeIncidents
  | 6 => some .setWindows
  | 7 => some .readEntry
  | 8 => some .loadEntry
  | 9 => some .arm
  | 10 => some .disarm
  | 11 => some .free
  | 12 => some .loadSlot
  | 13 => some .readSlot
  | 14 => some .setMode
  | 15 => some .release
  | 16 => some .restart
  | 17 => some .startCapture
  | 18 => some .readCapture
  | 19 => some .startTrial
  | 20 => some .abort
  | _ => none

/-- The request's minimum L (R151, R172, R176, R177, R179). -/
def RequestKind.minimum : RequestKind → Nat
  | .identify => 9
  | .readStatus => 20
  | .setAlerts => 9
  | .clearAlerts => 3
  | .takeIncidents => 2
  | .setWindows => 2
  | .readEntry => 24
  | .loadEntry => 13
  | .arm => 2
  | .disarm => 2
  | .free => 2
  | .loadSlot => 2
  | .readSlot => 1
  | .setMode => 3
  | .release => 1
  | .restart => 1
  | .startCapture => 5
  | .readCapture => 3
  | .startTrial => 2
  | .abort => 3

/-- The five requests that may be broadcast (R147). -/
def RequestKind.mayBroadcast : RequestKind → Bool
  | .clearAlerts => true
  | .setMode => true
  | .release => true
  | .restart => true
  | .abort => true
  | _ => false

/-- The request's own checks and effect, once its code and length have passed. -/
def RequestKind.carryOut (k : RequestKind) (operands : List Byte) (s : State) : Response :=
  match k with
  | .identify => reqIdentify s
  | .readStatus => reqReadStatus s
  | .setAlerts => reqSetAlerts operands s
  | .clearAlerts => reqClearAlerts operands s
  | .takeIncidents => reqTakeIncidents operands s
  | .setWindows => reqSetWindows operands s
  | .readEntry => reqReadEntry operands s
  | .loadEntry => reqLoadEntry operands s
  | .arm => reqArm operands s
  | .disarm => reqDisarm operands s
  | .free => reqFree operands s
  | .loadSlot => reqLoadSlot operands s
  | .readSlot => reqReadSlot operands s
  | .setMode => reqSetMode operands s
  | .release => reqRelease s
  | .restart => reqRestart operands s
  | .startCapture => reqStartCapture operands s
  | .readCapture => reqReadCapture operands s
  | .startTrial => reqStartTrial operands s
  | .abort => reqAbort operands s

/-- A known request: BAD-LENGTH below its minimum, else its own checks and effect (R150, R151). -/
def RequestKind.respond (k : RequestKind) (operands : List Byte) (s : State) : Response :=
  if operands.length < k.minimum then refuse .badLength [] s else k.carryOut operands s

/-- The response to a request of any code (R150). -/
def respond (code : Byte) (operands : List Byte) (s : State) : Response :=
  match requestKind code with
  | none => refuse .badCode [] s
  | some k => k.respond operands s

/-- Reply data laid out in L bytes: every byte the rule does not fill is 0 (R149). -/
def padTo (len : Nat) (data : List Byte) : List Byte := (data ++ List.replicate (len - data.length) 0#8).take len

/-- The reply to an addressed request: the same length, tag and place, the part's position and the result (R149). -/
def replyRecord (position : Nat) (q : Request) (r : Response) : WireRecord :=
  { kind := .reply, fixed1 := byteOf position, fixed2 := q.tag, fixed3 := byteOf r.result.code,
    payload := padTo q.operands.length r.data }

/-- An addressed request: executed, then replaced by its reply (R147, R149). -/
def State.answer (position : Nat) (q : Request) (s : State) : State :=
  let r := respond q.code q.operands s
  r.state.rewriteRecord (replyRecord position q r)

/-- A broadcast: executed without a reply if it is one of the five (R147). -/
def State.takeBroadcast (q : Request) (s : State) : State :=
  match requestKind q.code with
  | some k => if k.mayBroadcast then (k.respond q.operands s).state else s
  | none => s

/-- The Request Engine at the completion of a request in a readable train (R146, R147). -/
def State.completeRequest (q : Request) (s : State) : State :=
  if s.inPath then
    if q.target.toNat = 0 then s.takeBroadcast q
    else
      match s.position with
      | some p => if q.target.toNat = p then s.answer p q else s
      | none => s
  else s

end Sys2Proof.Machine
end

