-- ==== Sys2Proof/Machine/Framing.lean ====
section
/-! DEFINITION. The Framer's taking of one symbol, and the whole of one arrival at UP (01, 07 sections 7.6, R142, R143). -/

namespace Sys2Proof.Machine

/-- The parse position changes. -/
def State.setPosition (p : ParsePosition) (s : State) : State := { s with framer := { s.framer with position := p } }

/-- A damaged record or a stray symbol has been found in the open train. -/
def State.markFaulted (s : State) : State := { s with framer := { s.framer with trainFaulted := true } }

/-! ### The notice run (R142, R143) -/

/-- A symbol of the body that is not FILL: the run becomes 0. A bypassed part's run is 0 already (log 12). -/
def State.breakRun (s : State) : State := { s with alert := { s.alert with noticeRun := 0 } }

/-- A FILL in the body of a readable train, received in the path: the run goes up by 1, stopping at 12. -/
def State.extendRun (s : State) : State :=
  if s.inPath then
    { s with alert := { s.alert with noticeRun := min Config.noticeRunLength (s.alert.noticeRun + 1) } }
  else s

/-- A waiting notice is written over the newest twelve places once the run stands at 12. -/
def State.placeNotice (s : State) : State :=
  if s.inPath && s.alert.noticeWaiting && decide (s.alert.noticeRun = Config.noticeRunLength) then
    let s' := s.rewriteRecord s.noticeRecord
    { s' with alert := { s'.alert with noticeWaiting := false, noticeRun := 0 } }
  else s

/-- Body fill. -/
def State.bodyFill (s : State) : State := s.extendRun.placeNotice

/-! ### Stray symbols (R16, R20, R29, R30) -/

/-- A stray symbol in the body. -/
def State.strayInBody (s : State) : State :=
  let s := s.breakRun
  let s' := if s.framer.strayReported then s else s.reportInPath 2
  { s' with framer := { s'.framer with trainFaulted := true, strayReported := true } }

/-- A stray symbol outside a train. -/
def State.strayOutside (s : State) : State :=
  let s' := if s.framer.strayReported then s else s.reportInPath 2
  { s' with framer := { s'.framer with strayReported := true }, link := s'.link.stray }

/-! ### Train ends by symbols (R13, R21) -/

/-- A TS with a train open closes it by a break and opens a new one (R13). -/
def State.reopenTrain (s : State) : State := (s.endTrain false).openTrain

/-- A record is cut: reported with cause 1, and the train is faulted (R19). -/
def State.cutRecord (s : State) : State := ((s.reportInPath 1).markFaulted).setPosition .body

/-! ### Records (R17, R18) -/

/-- A mark opens a record, with the length byte due. -/
def State.openRecord (k : RecordKind) (s : State) : State :=
  s.breakRun.setPosition (.record { kind := k, bytes := [], check := checkStart, errSeen := false })

/-- The length byte as a number, once it has arrived. -/
def RecordProgress.length (r : RecordProgress) : Nat := (r.bytes.getD 0 0#8).toNat

/-- The check bytes as received. -/
def RecordProgress.receivedCheck (r : RecordProgress) : Word :=
  wordOf (r.bytes.getD (r.length + 4) 0#8) (r.bytes.getD (r.length + 5) 0#8)

/-- The record's check is valid and no ERR stood in it (R11, R17). -/
def RecordProgress.valid (r : RecordProgress) : Bool := !r.errSeen && r.receivedCheck == r.check

/-- The fixed byte k, 1 to 3. -/
def RecordProgress.fixedByte (r : RecordProgress) (k : Nat) : Byte := r.bytes.getD k 0#8

/-- The payload as received. -/
def RecordProgress.payload (r : RecordProgress) : List Byte := (r.bytes.drop 4).take r.length

/-- The data record a completion delivers. -/
def RecordProgress.dataRecord (r : RecordProgress) : DataRecord :=
  { source := r.fixedByte 1, channel := r.fixedByte 2, flags := r.fixedByte 3, payload := r.payload }

/-- The request a completion delivers. -/
def RecordProgress.request (r : RecordProgress) : Request :=
  { target := r.fixedByte 1, tag := r.fixedByte 2, code := r.fixedByte 3, operands := r.payload }

/-- A valid record completion goes to the block that owns its kind; replies and notices are forwarded unchanged (R18). -/
def State.deliver (r : RecordProgress) (s : State) : State :=
  match r.kind with
  | .data => s.completeData r.dataRecord
  | .request => s.completeRequest r.request
  | .reply => s
  | .notice => s

/-- A record found damaged: reported with cause 1, and the train is faulted (R17). -/
def State.damagedRecord (s : State) : State := (s.reportInPath 1).markFaulted

/-- The record's last check byte has been taken: its completion, or a damaged record (R17). -/
def State.finishRecord (r : RecordProgress) (s : State) : State :=
  let s := s.setPosition .body
  if r.valid then s.deliver r else s.damagedRecord

/-- A byte's place inside a record is taken; err says that an ERR stood there (R17). -/
def RecordProgress.take (r : RecordProgress) (b : Byte) (err : Bool) : RecordProgress :=
  { r with
    bytes := r.bytes ++ [b]
    check := if r.bytes.length < r.length + 4 then checkByte r.check b else r.check
    errSeen := r.errSeen || err }

/-- The length byte is taken as L, or damages the record at once (R17). -/
def State.takeLength (r : RecordProgress) (b : Byte) (err : Bool) (s : State) : State :=
  if err || decide (Config.maxPayload < b.toNat) then s.damagedRecord.setPosition .skip
  else s.setPosition (.record { r with bytes := [b], check := checkByte r.check b })

/-- A data byte, or an ERR in the place of one, inside a record (R17). -/
def State.takeRecordByte (r : RecordProgress) (b : Byte) (err : Bool) (s : State) : State :=
  let s := s.breakRun
  if r.bytes.isEmpty then s.takeLength r b err
  else
    let r' := r.take b err
    if r'.bytes.length = r'.length + 6 then s.finishRecord r' else s.setPosition (.record r')

/-! ### One symbol by the parse position -/

/-- OUTSIDE (R13, R20). -/
def State.takeOutside (x : Symbol) (s : State) : State :=
  match x with
  | .fill => s
  | .ts => s.openTrain
  | _ => s.strayOutside

/-- A symbol that is no data byte in the header or status area: the train is unreadable (R14). -/
def State.takeUnexpected (x : Symbol) (s : State) : State :=
  match x with
  | .te => s.endTrain true
  | .ta => s.endTrain false
  | .ts => s.reopenTrain
  | _ => s.setPosition .unread

/-- A header byte in its place (R5, R14). -/
def Framer.takeHeaderByte (due : Nat) (b : Byte) (f : Framer) : Framer :=
  if due = 1 then
    if 1 ≤ b.toNat ∧ b.toNat ≤ 31 then { f with slotCount := b.toNat, position := .header 2 } else { f with position := .unread }
  else if due = 2 then { f with flags := b, position := .header 3 }
  else { f with sequence := b, position := .status 1 }

/-- HEADER (R14). -/
def State.takeHeader (due : Nat) (x : Symbol) (s : State) : State :=
  match x with
  | .data b => { s with framer := s.framer.takeHeaderByte due b }
  | _ => s.takeUnexpected x

/-- A status byte; the last one delivers the header read event (R7, R14). -/
def State.takeStatusByte (due : Nat) (b : Byte) (s : State) : State :=
  let s := { s with framer := { s.framer with statusBytes := s.framer.statusBytes ++ [b] } }
  if due < s.framer.slotCount then s.setPosition (.status (due + 1)) else (s.setPosition .body).headerRead

/-- STATUS (R14). -/
def State.takeStatus (due : Nat) (x : Symbol) (s : State) : State :=
  match x with
  | .data b => s.takeStatusByte due b
  | _ => s.takeUnexpected x

/-- BODY (R16). -/
def State.takeBody (x : Symbol) (s : State) : State :=
  match x with
  | .fill => s.bodyFill
  | .md => s.openRecord .data
  | .mq => s.openRecord .request
  | .ma => s.openRecord .reply
  | .mn => s.openRecord .notice
  | .data _ => s.strayInBody
  | .err => s.strayInBody
  | .te => s.endTrain true
  | .ta => s.endTrain false
  | .ts => s.reopenTrain

/-- RECORD (R17, R19). -/
def State.takeRecord (r : RecordProgress) (x : Symbol) (s : State) : State :=
  match x with
  | .data b => s.takeRecordByte r b false
  | .err => s.takeRecordByte r 0#8 true
  | _ => s.cutRecord.takeBody x

/-- SKIP (R17). -/
def State.takeSkip (x : Symbol) (s : State) : State :=
  match x with
  | .data _ => s.breakRun
  | .err => s.breakRun
  | _ => (s.setPosition .body).takeBody x

/-- UNREAD (R5, R15): the byte at symbol count 4 is the train sequence number. -/
def State.takeUnread (x : Symbol) (s : State) : State :=
  match x with
  | .data b => if s.framer.symbolCount = 4 then { s with framer := { s.framer with sequence := b } } else s
  | _ => s.takeUnexpected x

/-- The Framer takes a symbol (01, section 1.4). -/
def State.takeSymbol (x : Symbol) (s : State) : State :=
  match s.framer.position with
  | .outside => s.takeOutside x
  | .header due => s.takeHeader due x
  | .status due => s.takeStatus due x
  | .body => s.takeBody x
  | .record r => s.takeRecord r x
  | .skip => s.takeSkip x
  | .unread => s.takeUnread x

/-! ### One arrival -/

/-- The arrival as the Framer's counters take it: the signal is present, the timer restarts, the open train's count goes up
(R15, R21, R23). -/
def Framer.hear (f : Framer) : Framer :=
  { f with signal := .present, silence := 0, symbolCount := if f.trainOpen then f.symbolCount + 1 else f.symbolCount }

/-- The Delay Line and DN at an arrival: the drain owns DN; in the path the queue moves; else the bypass joins UP to DN
(R2, R24, R28, R34). -/
def State.moveLine (x : LineSymbol) (s : State) : State :=
  if s.link.draining then s
  else if s.inPath then
    { s with dn := s.dn ++ (s.delay.getLast?.map LineSymbol.readable).toList, delay := x.taken :: s.delay.dropLast }
  else s.emit [x]

/-- The break at the 2048th symbol, an unfinished record being cut first (R19, R21). -/
def State.limitBreak (s : State) : State :=
  match s.framer.position with
  | .record _ => s.cutRecord.endTrain false
  | _ => s.endTrain false

/-- The 2048-symbol limit after a symbol has been taken (R21). -/
def State.limitIfDue (s : State) : State :=
  if s.framer.trainOpen && decide (s.framer.symbolCount = Config.trainLimit) then s.limitBreak else s

/-- The line moves and the Framer takes the symbol. -/
def State.takeArrival (x : LineSymbol) (s : State) : State :=
  ({ (s.moveLine x) with framer := s.framer.hear }).takeSymbol x.taken

/-- The part's whole action on one arrival while it runs. -/
def State.hearSymbol (x : LineSymbol) (s : State) : State := (s.takeArrival x).limitIfDue.leaveIfDue

/-- One arrival at UP. Without its supply, or held in reset, the part only joins UP to DN (R27, R28, 00). -/
def State.arrive (x : LineSymbol) (s : State) : State := if s.running then s.hearSymbol x else s.emit [x]

/-- Arrivals one after another. -/
def State.arriveAll : List LineSymbol → State → State
  | [], s => s
  | x :: xs, s => State.arriveAll xs (s.arrive x)

/-- The arrival of a whole record's symbols; the last of them is its completion. -/
def State.arriveRecord (r : WireRecord) (s : State) : State := s.arriveAll (r.symbols.map .readable)

/-! ### Silence -/

/-- The rest of the 128 symbol times passes without an arrival. A drain, which needs at most 65 of them, is over; then loss of
signal is declared, unless the signal is lost already (R23, R34, log 2). -/
def State.fallSilent (s : State) : State :=
  if s.running then
    let s := if s.link.draining then s.finishDrain else s
    if s.framer.signal == .present then s.declareLoss else s
  else s

/-- What brings a train to its end. -/
def State.occur (o : Occasion) (s : State) : State :=
  match o with
  | .arrival x => s.arrive x
  | .silence => s.fallSilent

/-- The loss-of-signal timer counts one symbol time; at 128 loss of signal is declared (R23). -/
def State.countSilence (s : State) : State :=
  if s.framer.signal == .present then
    if s.framer.silence + 1 < Config.silenceLimit then
      { s with framer := { s.framer with silence := s.framer.silence + 1 } }
    else s.declareLoss
  else s

/-- One symbol time without an arrival: the drain sends a symbol, and the timer counts (R23, R34, log 2). -/
def State.symbolTime (s : State) : State :=
  if s.running then (if s.link.draining then s.drainTick else s).countSilence else s

end Sys2Proof.Machine
end

