-- ==== Sys2Proof/Machine/Requests.lean ====
section
/-! DEFINITION. The meanings of the requests: the request record's symbols arrive at UP, and the last of them is its completion, at
which the Request Engine takes it (R146, R148, log 1). -/

namespace Sys2Proof.Machine

/-- The arrival of a request record. -/
def State.arriveRequest (q : Request) (s : State) : State := s.quiet.arriveRecord q.wire

/-- IDENTIFY, code 1 (R152). -/
def execIdentify (target tag : Byte) (operands : List Byte) (s : State) : Host.Outcome State Fault Refusal :=
  .next (s.arriveRequest { target := target, tag := tag, code := 1#8, operands := operands })

/-- READ STATUS, code 2 (R153). -/
def execReadStatus (target tag : Byte) (operands : List Byte) (s : State) : Host.Outcome State Fault Refusal :=
  .next (s.arriveRequest { target := target, tag := tag, code := 2#8, operands := operands })

/-- SET ALERTS, code 3 (R157). -/
def execSetAlerts (target tag : Byte) (operands : List Byte) (s : State) : Host.Outcome State Fault Refusal :=
  .next (s.arriveRequest { target := target, tag := tag, code := 3#8, operands := operands })

/-- CLEAR ALERTS, code 4 (R158). -/
def execClearAlerts (target tag : Byte) (operands : List Byte) (s : State) : Host.Outcome State Fault Refusal :=
  .next (s.arriveRequest { target := target, tag := tag, code := 4#8, operands := operands })

/-- TAKE INCIDENTS, code 5 (R154). -/
def execTakeIncidents (target tag : Byte) (operands : List Byte) (s : State) : Host.Outcome State Fault Refusal :=
  .next (s.arriveRequest { target := target, tag := tag, code := 5#8, operands := operands })

/-- SET WINDOWS, code 6 (R159). -/
def execSetWindows (target tag : Byte) (operands : List Byte) (s : State) : Host.Outcome State Fault Refusal :=
  .next (s.arriveRequest { target := target, tag := tag, code := 6#8, operands := operands })

/-- READ ENTRY, code 7 (R155). -/
def execReadEntry (target tag : Byte) (operands : List Byte) (s : State) : Host.Outcome State Fault Refusal :=
  .next (s.arriveRequest { target := target, tag := tag, code := 7#8, operands := operands })

/-- LOAD ENTRY, code 8 (R160). -/
def execLoadEntry (target tag : Byte) (operands : List Byte) (s : State) : Host.Outcome State Fault Refusal :=
  .next (s.arriveRequest { target := target, tag := tag, code := 8#8, operands := operands })

/-- ARM, code 9 (R161). -/
def execArm (target tag : Byte) (operands : List Byte) (s : State) : Host.Outcome State Fault Refusal :=
  .next (s.arriveRequest { target := target, tag := tag, code := 9#8, operands := operands })

/-- DISARM, code 10 (R162). -/
def execDisarm (target tag : Byte) (operands : List Byte) (s : State) : Host.Outcome State Fault Refusal :=
  .next (s.arriveRequest { target := target, tag := tag, code := 10#8, operands := operands })

/-- FREE, code 11 (R163). -/
def execFree (target tag : Byte) (operands : List Byte) (s : State) : Host.Outcome State Fault Refusal :=
  .next (s.arriveRequest { target := target, tag := tag, code := 11#8, operands := operands })

/-- LOAD SLOT, code 12 (R164). -/
def execLoadSlot (target tag : Byte) (operands : List Byte) (s : State) : Host.Outcome State Fault Refusal :=
  .next (s.arriveRequest { target := target, tag := tag, code := 12#8, operands := operands })

/-- READ SLOT, code 13 (R156). -/
def execReadSlot (target tag : Byte) (operands : List Byte) (s : State) : Host.Outcome State Fault Refusal :=
  .next (s.arriveRequest { target := target, tag := tag, code := 13#8, operands := operands })

/-- SET MODE with mode OBSERVE, code 14, first operand 1 (R165). -/
def execSetModeObserve (target tag : Byte) (rest : List Byte) (s : State) : Host.Outcome State Fault Refusal :=
  .next (s.arriveRequest { target := target, tag := tag, code := 14#8, operands := 1#8 :: rest })

/-- SET MODE with mode ACTIVE, code 14, first operand 2 (R165). -/
def execSetModeActive (target tag : Byte) (rest : List Byte) (s : State) : Host.Outcome State Fault Refusal :=
  .next (s.arriveRequest { target := target, tag := tag, code := 14#8, operands := 2#8 :: rest })

/-- SET MODE with mode BYPASS, code 14, first operand 3 (R37, R165). -/
def execSetModeBypass (target tag : Byte) (rest : List Byte) (s : State) : Host.Outcome State Fault Refusal :=
  .next (s.arriveRequest { target := target, tag := tag, code := 14#8, operands := 3#8 :: rest })

/-- RELEASE, code 15 (R166). -/
def execRelease (target tag : Byte) (operands : List Byte) (s : State) : Host.Outcome State Fault Refusal :=
  .next (s.arriveRequest { target := target, tag := tag, code := 15#8, operands := operands })

/-- RESTART with scope WARM, code 16, first operand 0 (R67, R167). -/
def execRestartWarm (target tag : Byte) (rest : List Byte) (s : State) : Host.Outcome State Fault Refusal :=
  .next (s.arriveRequest { target := target, tag := tag, code := 16#8, operands := 0#8 :: rest })

/-- RESTART with scope TABLE, code 16, first operand 1 (R68, R167). -/
def execRestartTable (target tag : Byte) (rest : List Byte) (s : State) : Host.Outcome State Fault Refusal :=
  .next (s.arriveRequest { target := target, tag := tag, code := 16#8, operands := 1#8 :: rest })

/-- START CAPTURE, code 17 (R172). -/
def execStartCapture (target tag : Byte) (operands : List Byte) (s : State) : Host.Outcome State Fault Refusal :=
  .next (s.arriveRequest { target := target, tag := tag, code := 17#8, operands := operands })

/-- READ CAPTURE, code 18 (R176). -/
def execReadCapture (target tag : Byte) (operands : List Byte) (s : State) : Host.Outcome State Fault Refusal :=
  .next (s.arriveRequest { target := target, tag := tag, code := 18#8, operands := operands })

/-- START TRIAL, code 19 (R177). -/
def execStartTrial (target tag : Byte) (operands : List Byte) (s : State) : Host.Outcome State Fault Refusal :=
  .next (s.arriveRequest { target := target, tag := tag, code := 19#8, operands := operands })

/-- ABORT with condition NOW, code 20, first operand 1 (R179). -/
def execAbortNow (target tag : Byte) (rest : List Byte) (s : State) : Host.Outcome State Fault Refusal :=
  .next (s.arriveRequest { target := target, tag := tag, code := 20#8, operands := 1#8 :: rest })

/-- ABORT with condition QUIET, code 20, first operand 2 (R179). -/
def execAbortQuiet (target tag : Byte) (rest : List Byte) (s : State) : Host.Outcome State Fault Refusal :=
  .next (s.arriveRequest { target := target, tag := tag, code := 20#8, operands := 2#8 :: rest })

/-- ABORT with condition AT-TRIP, code 20, first operand 3 (R179). -/
def execAbortAtTrip (target tag : Byte) (rest : List Byte) (s : State) : Host.Outcome State Fault Refusal :=
  .next (s.arriveRequest { target := target, tag := tag, code := 20#8, operands := 3#8 :: rest })

/-- ABORT with condition AT-TRAIN, code 20, first operand 4 (R179). -/
def execAbortAtTrain (target tag : Byte) (rest : List Byte) (s : State) : Host.Outcome State Fault Refusal :=
  .next (s.arriveRequest { target := target, tag := tag, code := 20#8, operands := 4#8 :: rest })

/-- A request with a code outside 1 to 20 (R147, R150). -/
def execBadCode (code target tag : Byte) (operands : List Byte) (s : State) : Host.Outcome State Fault Refusal :=
  .next (s.arriveRequest { target := target, tag := tag, code := code, operands := operands })

end Sys2Proof.Machine
end

