-- ==== Sys2Proof/Machine/Stream.lean ====
section
/-! DEFINITION. The meanings of the commands of the stream and of time: an arrival, a data record, silence, the drain's end, and the
steps named by what comes about at an arrival or a silence (log 1). -/

namespace Sys2Proof.Machine

/-- A step named by what comes about: the event runs whole, if the thing named does come about at it; if not, the step does
not take place and the part stays as it is (log 1). -/
def State.comesAbout (named : State → State → Bool) (event : State → State) (s : State) : Host.Outcome State Fault Refusal :=
  let t := event s.quiet
  if named s t then .next t else .next s.quiet

/-- SYMBOL_ARRIVAL (R24): the whole of one arrival at UP. -/
def execSymbolArrival (x : LineSymbol) (s : State) : Host.Outcome State Fault Refusal := .next (s.quiet.arrive x)

/-- The next arrival is the 2048th symbol of the open train, and does not itself end it (R21). -/
def State.limitNext (s : State) (x : LineSymbol) : Bool :=
  s.running && s.framer.trainOpen && decide (s.framer.symbolCount + 1 = Config.trainLimit) && !x.taken.endsTrain

/-- TRAIN_LIMIT_BREAK (R21): the arrival of the 2048th symbol. -/
def execTrainLimitBreak (x : LineSymbol) (s : State) : Host.Outcome State Fault Refusal :=
  s.comesAbout (fun a _ => a.limitNext x) (State.arrive x)

/-- LOSS_OF_SIGNAL (R23): the rest of the 128 symbol times passes without an arrival. -/
def execLossOfSignal (s : State) : Host.Outcome State Fault Refusal := .next s.quiet.fallSilent

/-- DRAIN_END (R34): the rest of the drain leaves DN, and the switch closes. -/
def execDrainEnd (s : State) : Host.Outcome State Fault Refusal :=
  .next (if s.running && s.link.draining then s.quiet.finishDrain else s.quiet)

/-- The link state has become JOIN-WAIT (R29). -/
def joinWaitEntered (s t : State) : Bool := s.link.state == .acquire && t.link.state == .joinWait

/-- JOIN_WAIT_ENTRY (R29): the TE that ends the second clean train. -/
def execJoinWaitEntry (s : State) : Host.Outcome State Fault Refusal :=
  s.comesAbout joinWaitEntered (State.arrive (.readable .te))

/-- The part has left the path for HELD (R32). -/
def leftThePath (s t : State) : Bool := s.inPath && t.link.state == .held

/-- LEAVING_THE_PATH (R32): the arrival of the FILL after which the three conditions hold. -/
def execLeavingThePath (s : State) : Host.Outcome State Fault Refusal :=
  s.comesAbout leftThePath (State.arrive (.readable .fill))

/-- The occasion ends an open train (R21). -/
def State.endsBy (s : State) (o : Occasion) : Bool :=
  s.framer.trainOpen &&
    match o with
    | .arrival x => x.taken.endsTrain || decide (s.framer.symbolCount + 1 = Config.trainLimit)
    | .silence => true

/-- A train end has brought the held count to 0 (R35). -/
def heldCountExpired (o : Occasion) (s t : State) : Bool :=
  s.endsBy o && s.link.state == .held && t.link.state == .acquire

/-- HELD_COUNT_EXPIRY (R35): the train end whose decrement brings the held count to 0. -/
def execHeldCountExpiry (o : Occasion) (s : State) : Host.Outcome State Fault Refusal :=
  s.comesAbout (heldCountExpired o) (State.occur o)

/-- DATA_RECORD_COMPLETION (R69): the data record's symbols arrive, the last of them being its completion. -/
def execDataRecordCompletion (source channel flags : Byte) (payload : List Byte) (s : State) :
    Host.Outcome State Fault Refusal :=
  .next (s.quiet.arriveRecord (DataRecord.wire { source := source, channel := channel, flags := flags, payload := payload }))

/-- The part as the end of a train finds it. A symbol that is taken in its own right first, and whose count of 2048 then ends the
train, is taken: the record or request it completes has its effect before the end's (R21, R148). -/
def State.beforeEnd (o : Occasion) (s : State) : State :=
  match o with
  | .arrival x => if s.running && !x.taken.endsTrain then s.takeArrival x else s
  | .silence => s

/-- A step named by what a train end brings about, judged against the part as the end finds it (log 1). -/
def State.comesAboutAtEnd (named : State → State → Bool) (o : Occasion) (s : State) : Host.Outcome State Fault Refusal :=
  s.comesAbout (fun a t => named (a.beforeEnd o) t) (State.occur o)

/-- A period of the entry has run out, leaving it LATE (R95). -/
def periodExpired (i : Nat) (s t : State) : Bool :=
  decide ((t.entry i).live.miss = (s.entry i).live.miss + 1) && (t.entry i).live.timing == .late

/-- PERIOD_EXPIRY (R95): the train end at which the entry's period runs out and leaves it LATE. -/
def execPeriodExpiry (i : Nat) (o : Occasion) (s : State) : Host.Outcome State Fault Refusal :=
  s.comesAboutAtEnd (periodExpired i) o

/-- The entry has become STALE (R96). -/
def becameStale (i : Nat) (s t : State) : Bool := (s.entry i).live.timing != .stale && (t.entry i).live.timing == .stale

/-- STALE (R96): the train end at which the entry becomes STALE. -/
def execStale (i : Nat) (o : Occasion) (s : State) : Host.Outcome State Fault Refusal :=
  s.comesAboutAtEnd (becameStale i) o

/-- The running capture has ended TIMEOUT (R175); one that the same arrival's START CAPTURE has started runs already (log 1). -/
def captureTimedOut (s t : State) : Bool :=
  s.op.slot.code == 1 && t.op.slot.isIdle && t.op.last.kind == .capture && t.op.last.cause == .timeout

/-- CAPTURE_TIMEOUT (R175): the train end at which the trains without match reach the limit. -/
def execCaptureTimeout (o : Occasion) (s : State) : Host.Outcome State Fault Refusal :=
  s.comesAboutAtEnd captureTimedOut o

/-- The running trial has ended DONE (R178); one that the same arrival's START TRIAL has started runs already (log 1). -/
def trialEnded (s t : State) : Bool :=
  s.op.slot.code == 2 && t.op.slot.isIdle && t.op.last.kind == .trial && t.op.last.cause == .done

/-- TRIAL_DONE (R178): the train end at which the trains counted reach the limit. -/
def execTrialDone (o : Occasion) (s : State) : Host.Outcome State Fault Refusal :=
  s.comesAboutAtEnd trialEnded o

/-- The waiting notice has been placed (R143), as the taking of the FILL leaves the flag: a break at the same arrival may set it
again (R21, R141). -/
def noticePlaced (s : State) : Bool :=
  s.running && s.alert.noticeWaiting && !(s.takeArrival (.readable .fill)).alert.noticeWaiting

/-- NOTICE_PLACEMENT (R143): the arrival of the FILL after which the run stands at 12 with a notice waiting. -/
def execNoticePlacement (s : State) : Host.Outcome State Fault Refusal :=
  s.comesAbout (fun a _ => noticePlaced a) (State.arrive (.readable .fill))

end Sys2Proof.Machine
end

