-- ==== Sys2Proof/Machine/Supply.lean ====
section
/-! DEFINITION. The meanings of POWER_ON, RESETN_ASSERT, RESETN_RELEASE and POWER_LOSS. -/

namespace Sys2Proof.Machine

/-- POWER_ON (R27, R43): every block at its reset values; the rate pins are read as power-on ends (R3). -/
def execPowerOn (rate0 rate1 : Bool) (s : State) : Host.Outcome State Fault Refusal :=
  .next { s.quiet.resetBlocks with powered := true, rate := rateOf rate0 rate1 }

/-- RESETN_ASSERT (R27, R42): RESETn goes low and every block takes its reset values at once. Without the supply only the pin
changes (log 9). -/
def execResetnAssert (s : State) : Host.Outcome State Fault Refusal :=
  let t := if s.powered then s.quiet.resetBlocks else s.quiet
  .next { t with resetnHigh := false }

/-- RESETN_RELEASE (R3, R43): RESETn returns high, the part starts in the state the reset set, and the rate pins are read.
With RESETn high already the pin does not move and nothing comes about (log 8). -/
def execResetnRelease (rate0 rate1 : Bool) (s : State) : Host.Outcome State Fault Refusal :=
  if s.resetnHigh then .next s.quiet
  else .next { s.quiet with resetnHigh := true, rate := if s.powered then rateOf rate0 rate1 else s.rate }

/-- POWER_LOSS (R132, 00 "Pins and package"): ALERTn is not driven, and the passive bypass joins UP to DN. What the registers
hold is not seen until POWER_ON sets them all (log 9). -/
def execPowerLoss (s : State) : Host.Outcome State Fault Refusal :=
  .next { s.quiet with
    powered := false
    link := { s.link with bypassClosed := true, draining := false, drainTa := false }
    alert := { s.alert with alertn := false } }

end Sys2Proof.Machine
end

