-- ==== Sys2Proof/Machine/Dispatch.lean ====
section
/-! DEFINITION. The dispatch: one arm for each constructor of Instr. -/

namespace Sys2Proof.Machine

def exec (i : Instr) (s : State) : Host.Outcome State Fault Refusal :=
  match i with
  | .powerOn rate0 rate1 => Sys2Proof.Machine.execPowerOn rate0 rate1 s
  | .resetnAssert => Sys2Proof.Machine.execResetnAssert s
  | .resetnRelease rate0 rate1 => Sys2Proof.Machine.execResetnRelease rate0 rate1 s
  | .symbolArrival x => Sys2Proof.Machine.execSymbolArrival x s
  | .trainLimitBreak x => Sys2Proof.Machine.execTrainLimitBreak x s
  | .lossOfSignal => Sys2Proof.Machine.execLossOfSignal s
  | .drainEnd => Sys2Proof.Machine.execDrainEnd s
  | .joinWaitEntry => Sys2Proof.Machine.execJoinWaitEntry s
  | .leavingThePath => Sys2Proof.Machine.execLeavingThePath s
  | .heldCountExpiry o => Sys2Proof.Machine.execHeldCountExpiry o s
  | .dataRecordCompletion source channel flags payload => Sys2Proof.Machine.execDataRecordCompletion source channel flags payload s
  | .periodExpiry entry o => Sys2Proof.Machine.execPeriodExpiry entry o s
  | .stale entry o => Sys2Proof.Machine.execStale entry o s
  | .captureTimeout o => Sys2Proof.Machine.execCaptureTimeout o s
  | .trialDone o => Sys2Proof.Machine.execTrialDone o s
  | .noticePlacement => Sys2Proof.Machine.execNoticePlacement s
  | .identify target tag operands => Sys2Proof.Machine.execIdentify target tag operands s
  | .readStatus target tag operands => Sys2Proof.Machine.execReadStatus target tag operands s
  | .setAlerts target tag operands => Sys2Proof.Machine.execSetAlerts target tag operands s
  | .clearAlerts target tag operands => Sys2Proof.Machine.execClearAlerts target tag operands s
  | .takeIncidents target tag operands => Sys2Proof.Machine.execTakeIncidents target tag operands s
  | .setWindows target tag operands => Sys2Proof.Machine.execSetWindows target tag operands s
  | .readEntry target tag operands => Sys2Proof.Machine.execReadEntry target tag operands s
  | .loadEntry target tag operands => Sys2Proof.Machine.execLoadEntry target tag operands s
  | .arm target tag operands => Sys2Proof.Machine.execArm target tag operands s
  | .disarm target tag operands => Sys2Proof.Machine.execDisarm target tag operands s
  | .free target tag operands => Sys2Proof.Machine.execFree target tag operands s
  | .loadSlot target tag operands => Sys2Proof.Machine.execLoadSlot target tag operands s
  | .readSlot target tag operands => Sys2Proof.Machine.execReadSlot target tag operands s
  | .setModeObserve target tag rest => Sys2Proof.Machine.execSetModeObserve target tag rest s
  | .setModeActive target tag rest => Sys2Proof.Machine.execSetModeActive target tag rest s
  | .setModeBypass target tag rest => Sys2Proof.Machine.execSetModeBypass target tag rest s
  | .release target tag operands => Sys2Proof.Machine.execRelease target tag operands s
  | .restartWarm target tag rest => Sys2Proof.Machine.execRestartWarm target tag rest s
  | .restartTable target tag rest => Sys2Proof.Machine.execRestartTable target tag rest s
  | .startCapture target tag operands => Sys2Proof.Machine.execStartCapture target tag operands s
  | .readCapture target tag operands => Sys2Proof.Machine.execReadCapture target tag operands s
  | .startTrial target tag operands => Sys2Proof.Machine.execStartTrial target tag operands s
  | .abortNow target tag rest => Sys2Proof.Machine.execAbortNow target tag rest s
  | .abortQuiet target tag rest => Sys2Proof.Machine.execAbortQuiet target tag rest s
  | .abortAtTrip target tag rest => Sys2Proof.Machine.execAbortAtTrip target tag rest s
  | .abortAtTrain target tag rest => Sys2Proof.Machine.execAbortAtTrain target tag rest s
  | .badCode code target tag operands => Sys2Proof.Machine.execBadCode code target tag operands s
  | .powerLoss => Sys2Proof.Machine.execPowerLoss s

end Sys2Proof.Machine
end

