-- ==== Sys2Proof/Machine/Step.lean ====
section
/-! DEFINITION. One step of the part: the command at the front of its queue, or one symbol time without an arrival. -/

namespace Sys2Proof.Machine

/-- One step. With no command waiting, one symbol time passes without an arrival (log 2). -/
def step (s : State) : Host.Outcome State Fault Refusal :=
  match s.pending with
  | [] => .next s.quiet.symbolTime
  | c :: rest => exec c { s with pending := rest }

/-- The state with the command that a word of the table's bits spells at the front of its queue; unchanged where the word
spells none, which is every word, since the table gives no row bits (log 4). -/
def State.withFetchWord (s : State) (nbits w : Nat) : State :=
  match decodeTableWord nbits w with
  | some c => { s with pending := c :: s.pending }
  | none => s

end Sys2Proof.Machine
end

