-- ==== Sys2Proof/Safety.lean ====
section
/-! DEFINITION. The words the statements are made of: when a record can arrive whole, the part as a record's completion finds it, requests
and their replies, what ends a train, and the invariants. -/

namespace Sys2Proof.Machine

/-! ### Where a record arrives -/

/-- The part runs, is in the path and does not drain; the open train is readable and the Framer is between records in its body;
n more symbols leave the train below its 2048-symbol limit. -/
def State.readyFor (n : Nat) (s : State) : Prop :=
  s.running = true ∧ s.inPath = true ∧ s.link.draining = false ∧ s.framer.position = .body ∧
    s.delay.length = Config.delayPlaces ∧ s.framer.symbolCount + n < Config.trainLimit

/-- The part as the completion of a record finds it (R9, R24, R142): the record's symbols hold the newest places, as many of the
oldest have left at DN, they are counted, and the notice run is 0. -/
def State.afterRecord (r : WireRecord) (s : State) : State :=
  let n := r.symbols.length
  { s with
    dn := (s.delay.drop (Config.delayPlaces - n)).reverse.map .readable
    delay := r.symbols.reverse ++ s.delay.take (Config.delayPlaces - n)
    framer := { s.framer with symbolCount := s.framer.symbolCount + n, signal := .present, silence := 0 }
    alert := { s.alert with noticeRun := 0 } }

/-- The same for a request of some code. -/
def State.afterRequest (target tag code : Byte) (operands : List Byte) (s : State) : State :=
  s.afterRecord (Request.wire { target := target, tag := tag, code := code, operands := operands })

/-! ### Requests and replies -/

/-- A request of these operands to this target can arrive whole, and the part holds the position it names (R146). -/
def State.addressed (target : Byte) (operands : List Byte) (s : State) : Prop :=
  s.readyFor (operands.length + 7) ∧ operands.length ≤ Config.maxPayload ∧ target ≠ 0#8 ∧ s.position = some target.toNat

/-- A reply stands over the request's own symbols (R149): the same length, tag and place, the target slot as responder slot, the
result code, the reply data and zeros after it, and the check of it all. -/
def State.replied (target tag : Byte) (operands : List Byte) (result : Byte) (data : List Byte) (s : State) : State :=
  let reply : WireRecord :=
    { kind := .reply, fixed1 := target, fixed2 := tag, fixed3 := result
      payload := data ++ List.replicate (operands.length - data.length) 0#8 }
  { s with delay := reply.symbols.reverse ++ s.delay.drop (operands.length + 7) }

/-- Some pending factor has a level at or above the threshold (R132). -/
def reaches (flags : PerFactor Bool) (levels : PerFactor Nat) (threshold : Nat) : Bool :=
  (flags.trip && decide (threshold ≤ levels.trip)) || (flags.stale && decide (threshold ≤ levels.stale)) ||
    (flags.link && decide (threshold ≤ levels.link)) || (flags.qfull && decide (threshold ≤ levels.qfull)) ||
    (flags.slot && decide (threshold ≤ levels.slot)) || (flags.isol && decide (threshold ≤ levels.isol)) ||
    (flags.opdone && decide (threshold ≤ levels.opdone))

/-- The factor set's byte (R190): bit k for the factor with code k, bit 7 for ALERTn. -/
def factorByte (flags : PerFactor Bool) (alertn : Bool) : Byte :=
  let bit := fun (b : Bool) (k : Nat) => if b then 2 ^ k else 0
  BitVec.ofNat 8 (bit flags.trip 0 + bit flags.stale 1 + bit flags.link 2 + bit flags.qfull 3 + bit flags.slot 4 +
    bit flags.isol 5 + bit flags.opdone 6 + bit alertn 7)

/-- The last-operation result that an end leaves, from the fields of the operation that ran (R170); kept when none ran. -/
def resultOf (slot : OperationSlot) (cause : EndCause) (before : LastResult) : LastResult :=
  match slot with
  | .idle => before
  | .capture c =>
    { kind := .capture, cause := cause, byte1 := BitVec.ofNat 8 c.matched, byte2 := BitVec.ofNat 8 c.lost
      byte3 := BitVec.ofNat 8 c.stored }
  | .trial t =>
    { kind := .trial, cause := cause, byte1 := BitVec.ofNat 8 t.entry, byte2 := BitVec.ofNat 8 t.counted
      byte3 := BitVec.ofNat 8 t.limit }

/-- The entry a trial's end leaves (R63): LOADED, CONFORMING, run 0, recovered clear, previous value absent, and these results. -/
def offTrial (results : Option TrialResults) (e : Entry) : Entry :=
  { e with
    state := .loaded
    live := { e.live with condition := .conforming, recovered := false, run := 0, previous := none, trial := results } }

/-- The table when the operation in the slot ends: a trial's entry leaves TRIAL, every other entry is kept. -/
def entriesOffTrial (slot : OperationSlot) (results : Option TrialResults → Option TrialResults) (entries : List Entry) :
    List Entry :=
  match slot with
  | .trial t => entries.modify t.entry fun e => offTrial (results e.live.trial) e
  | _ => entries

/-- The request a command carries, for the commands that are requests (08 "The requests at a glance"). -/
def requestOf : Instr → Option Request
  | .identify t g o => some { target := t, tag := g, code := 1#8, operands := o }
  | .readStatus t g o => some { target := t, tag := g, code := 2#8, operands := o }
  | .setAlerts t g o => some { target := t, tag := g, code := 3#8, operands := o }
  | .clearAlerts t g o => some { target := t, tag := g, code := 4#8, operands := o }
  | .takeIncidents t g o => some { target := t, tag := g, code := 5#8, operands := o }
  | .setWindows t g o => some { target := t, tag := g, code := 6#8, operands := o }
  | .readEntry t g o => some { target := t, tag := g, code := 7#8, operands := o }
  | .loadEntry t g o => some { target := t, tag := g, code := 8#8, operands := o }
  | .arm t g o => some { target := t, tag := g, code := 9#8, operands := o }
  | .disarm t g o => some { target := t, tag := g, code := 10#8, operands := o }
  | .free t g o => some { target := t, tag := g, code := 11#8, operands := o }
  | .loadSlot t g o => some { target := t, tag := g, code := 12#8, operands := o }
  | .readSlot t g o => some { target := t, tag := g, code := 13#8, operands := o }
  | .setModeObserve t g o => some { target := t, tag := g, code := 14#8, operands := 1#8 :: o }
  | .setModeActive t g o => some { target := t, tag := g, code := 14#8, operands := 2#8 :: o }
  | .setModeBypass t g o => some { target := t, tag := g, code := 14#8, operands := 3#8 :: o }
  | .release t g o => some { target := t, tag := g, code := 15#8, operands := o }
  | .restartWarm t g o => some { target := t, tag := g, code := 16#8, operands := 0#8 :: o }
  | .restartTable t g o => some { target := t, tag := g, code := 16#8, operands := 1#8 :: o }
  | .startCapture t g o => some { target := t, tag := g, code := 17#8, operands := o }
  | .readCapture t g o => some { target := t, tag := g, code := 18#8, operands := o }
  | .startTrial t g o => some { target := t, tag := g, code := 19#8, operands := o }
  | .abortNow t g o => some { target := t, tag := g, code := 20#8, operands := 1#8 :: o }
  | .abortQuiet t g o => some { target := t, tag := g, code := 20#8, operands := 2#8 :: o }
  | .abortAtTrip t g o => some { target := t, tag := g, code := 20#8, operands := 3#8 :: o }
  | .abortAtTrain t g o => some { target := t, tag := g, code := 20#8, operands := 4#8 :: o }
  | .badCode c t g o => some { target := t, tag := g, code := c, operands := o }
  | _ => none

/-- The minimum L of a request, by its code (R151 and the chapters of the requests); 0 for a code that names none. -/
def minimumLength (code : Byte) : Nat :=
  [0, 9, 20, 9, 3, 2, 2, 24, 13, 2, 2, 2, 2, 1, 3, 1, 1, 5, 3, 2, 3].getD code.toNat 0

/-- The codes of the five requests that may be broadcast: CLEAR ALERTS, SET MODE, RELEASE, RESTART, ABORT (R147). -/
def broadcastCodes : List Byte := [4#8, 14#8, 15#8, 16#8, 20#8]

/-! ### One arrival -/

/-- The part after the line has moved for an arrival, before the Framer takes the symbol (R2, R15, R21, R23, R24, R28, R34). -/
def State.afterArrival (x : LineSymbol) (s : State) : State :=
  { s with
    dn :=
      if s.link.draining = true then [] else if s.inPath = true then s.delay.getLast?.toList.map .readable else [x]
    delay := if s.link.draining = false ∧ s.inPath = true then x.taken :: s.delay.dropLast else s.delay
    framer := { s.framer with
      symbolCount := if s.framer.position = .outside then s.framer.symbolCount else s.framer.symbolCount + 1
      signal := .present, silence := 0 } }

/-- A fault report while the part is in the path, and nothing while it is bypassed (R22). -/
def State.afterFault (cause : Nat) (s : State) : State :=
  if s.inPath = true then (s.raise .link).pushIncident .link none (some (BitVec.ofNat 16 cause)) else s

/-- The Framer between trains: no train open, the number of the train that ended kept as the current one (R5, R21). -/
def Framer.betweenTrains (f : Framer) : Framer :=
  { f with position := .outside, slotCount := 0, flags := 0#8, statusBytes := [], symbolCount := 0, strayReported := false }

/-- The train in progress is readable and carries the flag in this bit of its flags byte (R6, R187). -/
def State.trainFlag (bit : Nat) (s : State) : Bool :=
  match s.framer.position with
  | .body => s.framer.flags.getLsbD bit
  | .skip => s.framer.flags.getLsbD bit
  | .record _ => s.framer.flags.getLsbD bit
  | _ => false

/-- The symbol is the last byte of the record the Framer is inside (R17). -/
def State.completesRecord (x : LineSymbol) (s : State) : Bool :=
  match s.framer.position, x.taken with
  | .record r, .data _ => decide (r.bytes.length = (r.bytes.getD 0 0#8).toNat + 5)
  | _, _ => false

/-- The occasion ends the open train, and the symbol that ends it completes no record (R21). -/
def State.endsTrainAt (o : Occasion) (s : State) : Prop :=
  s.framer.position ≠ .outside ∧
    match o with
    | .silence => True
    | .arrival x => x.taken ∈ [.te, .ta, .ts] ∨ (s.framer.symbolCount = 2047 ∧ s.completesRecord x = false)

/-- What the occasion is when it is commanded by itself. -/
def commandOf : Occasion → Instr
  | .arrival x => .symbolArrival x
  | .silence => .lossOfSignal

/-- The causes that a TE, TA or TS reports in the path as it ends the open train (R19, R21, R22): 1 for a record it cuts, then 3 for an
unreadable train or 4 for a broken one. -/
def State.endCauses (x : Symbol) (s : State) : List Nat :=
  let readableEnd := if x = .te then [] else [4]
  match s.framer.position with
  | .body => readableEnd
  | .skip => readableEnd
  | .record _ => 1 :: readableEnd
  | _ => [3]

/-- A counted train end makes the entry STALE (R94, R95). -/
def Entry.goesStale (e : Entry) : Bool :=
  decide (e.state = .armed ∧ 0 < e.config.period ∧ e.live.timing ≠ .stale ∧ e.live.since + 1 = e.config.period ∧
    e.live.miss + 1 = e.config.missLimit)

/-- A long operation runs and the end of the open train does not end it (R175, R178). -/
def State.outlastsTrain (s : State) : Bool :=
  match s.op.slot with
  | .idle => false
  | .capture c => decide (c.without + 1 ≠ c.limit)
  | .trial r => s.trainFlag 1 || decide (r.counted + 1 ≠ r.limit)

/-- The Link Controller in the path after a train end has applied the pending mode (R38). -/
def State.linkAfterEnd (s : State) : Link :=
  match s.link.pendingMode with
  | .none => s.link
  | .observe => { s.link with mode := .observe, state := .inline, heldCount := 0, pendingMode := .none }
  | .active => { s.link with mode := .active, state := .inline, heldCount := 0, pendingMode := .none }
  | .bypass h =>
    if s.outlastsTrain = true then { s.link with pendingMode := .none }
    else { s.link with state := .leaveWait, heldCount := h, pendingMode := .none }

/-- A long operation ends, but for OPDONE (R63, R170, R171). -/
def State.operationEnded (cause : EndCause) (results : Option TrialResults → Option TrialResults) (s : State) : State :=
  { s with
    table := { s.table with entries := entriesOffTrial s.op.slot results s.table.entries }
    trialStreak := match s.op.slot with | .trial _ => 0 | _ => s.trialStreak
    op := { s.op with slot := .idle, pendingAbort := .none, last := resultOf s.op.slot cause s.op.last } }

/-- The results of a trial that an ABORT ends: present, with the incomplete flag set (R63). -/
def keptIncomplete (results : Option TrialResults) : Option TrialResults := results.map fun r => { r with incomplete := true }

/-! ### A data record -/

/-- The value of the watched field, or none for a SHORT record (R45, R73). -/
def EntryConfig.fieldValue (c : EntryConfig) (payload : List Byte) : Option Word :=
  if payload.length < c.offset + (if c.wide = true then 2 else 1) then none
  else if c.wide = true then some (payload.getD c.offset 0#8 ++ payload.getD (c.offset + 1) 0#8)
  else if c.signed = true then some ((payload.getD c.offset 0#8).signExtend 16)
  else some ((payload.getD c.offset 0#8).zeroExtend 16)

/-- A value meets the template, given the previous value (R46, R74, R75, R76). -/
def EntryConfig.meets (c : EntryConfig) (previous : Option Word) (v : Word) : Bool :=
  let number : Word → Int := fun w => if c.signed = true then w.toInt else w.toNat
  match c.kind, previous with
  | .window, _ => decide (number c.a ≤ number v) && decide (number v ≤ number c.b)
  | .pattern, _ => decide (v &&& c.a = c.b)
  | .delta, none => true
  | .delta, some p => decide (number v - number p ≤ number c.a) && decide (number p - number v ≤ number c.a)

/-- A record conforms for an entry (R73 to R76). -/
def Entry.accepts (e : Entry) (payload : List Byte) : Bool :=
  match e.config.fieldValue payload with
  | none => false
  | some v => e.config.meets e.live.previous v

/-- The previous value after a judged record (R51, R76). -/
def Entry.previousAfter (e : Entry) (payload : List Byte) : Option Word :=
  if e.config.kind = .delta ∧ (e.config.fieldValue payload).isSome = true then e.config.fieldValue payload else e.live.previous

/-- The part after a running capture has met a data record (R173, R174). -/
def State.afterCapture (d : DataRecord) (s : State) : State :=
  match s.op.slot with
  | .capture c =>
    if d.source = c.source ∧ (c.channelAny = true ∨ d.channel = c.channel) then
      let fits := d.payload.length + 5 ≤ 512 - s.op.fifo.length
      let c' := { c with
        matched := c.matched + 1, without := 0
        stored := if fits then c.stored + 1 else c.stored
        lost := if fits then c.lost else c.lost + 1 }
      let image := BitVec.ofNat 8 d.payload.length :: d.source :: d.channel :: d.flags :: s.framer.sequence :: d.payload
      let u := { s with
        op := { s.op with slot := .capture c', fifo := if fits then s.op.fifo ++ image else s.op.fifo } }
      if c.matched + 1 = c.wanted then (u.operationEnded .done id).raise .opdone else u
    else s
  | _ => s

/-- The record an entry's reaction sends on in place of one that arrived (R106, R110 to R115); none when FILL takes its place. -/
def reactedRecord (r : Reaction) (content : List Byte) (d : DataRecord) : Option DataRecord :=
  match r with
  | .pass => some d
  | .mark => some { d with flags := d.flags ||| 1#8 }
  | .substitute =>
    if content ≠ [] ∧ content.length = d.payload.length then some { d with flags := d.flags ||| 2#8, payload := content }
    else some { d with flags := d.flags ||| 1#8 }
  | .drop => none
  | .isolate => none

/-- The Delay Line with a record, or FILL of its length, in the newest n places. -/
def overRecord (n : Nat) (r : Option DataRecord) (delay : List Symbol) : List Symbol :=
  (match r with | some d => d.wire.symbols.reverse | none => List.replicate n .fill) ++ delay.drop n

/-! ### The invariants -/

/-- Nothing holds more than it can (R44, R64, R123, R131, R138, R142, R174), and the incidents are numbered on by 1 (R139). -/
def State.withinCapacity (s : State) : Prop :=
  s.table.entries.length = 64 ∧ s.table.w0 ≤ 7 ∧ s.table.w1 ≤ 7 ∧
  s.reaction.store.length = 16 ∧ (∀ content ∈ s.reaction.store, content.length ≤ 48) ∧
  s.queue.items.length ≤ 32 ∧
  (∀ k x, s.queue.items[k]? = some x → x.sequence = s.queue.counter - BitVec.ofNat 8 (s.queue.items.length - k)) ∧
  s.op.fifo.length ≤ 512 ∧
  (∀ f, s.alert.levels.get f ≤ 3) ∧ 1 ≤ s.alert.threshold ∧ s.alert.threshold ≤ 3 ∧ s.alert.noticeRun ≤ 12 ∧
  ∀ r, s.framer.position = .record r → (r.bytes.getD 0 0#8).toNat ≤ 48

/-- ISOL is pending exactly while isolation is in force (R129), the line follows the factors (R132), and only enabled notices wait
(R131, R141). -/
def State.factorsAgree (s : State) : Prop :=
  s.alert.flags.isol = s.reaction.isolated ∧
  s.alert.alertn = (s.powered && reaches s.alert.flags s.alert.levels s.alert.threshold) ∧
  (s.alert.noticeWaiting = true → s.alert.noticeEnable = true)

/-- The Framer's counts go with its parse position (01, section 1.4). -/
def Framer.sound (f : Framer) : Prop :=
  (match f.position with
    | .outside => f.symbolCount = 0
    | .header due =>
      1 ≤ due ∧ due ≤ 3 ∧ f.symbolCount = due ∧ f.statusBytes = [] ∧ (1 < due → 1 ≤ f.slotCount ∧ f.slotCount ≤ 31)
    | .status due => 1 ≤ due ∧ due ≤ f.slotCount ∧ f.slotCount ≤ 31 ∧ f.statusBytes.length + 1 = due ∧ f.symbolCount = due + 3
    | .body => 5 ≤ f.symbolCount ∧ f.symbolCount < 2048
    | .record r =>
      5 ≤ f.symbolCount ∧ f.symbolCount < 2048 ∧
        (r.bytes ≠ [] → (r.bytes.getD 0 0#8).toNat ≤ 48 ∧ r.bytes.length ≤ (r.bytes.getD 0 0#8).toNat + 5)
    | .skip => 5 ≤ f.symbolCount ∧ f.symbolCount < 2048 ∧ f.trainFaulted = true
    | .unread => 1 ≤ f.symbolCount ∧ f.symbolCount < 2048) ∧
  (f.signal = .lost → f.position = .outside ∧ f.silence = 128) ∧ (f.signal = .present → f.silence < 128)

/-- The place of the part in the ring: the switch, the Delay Line and the drain go with the link state (R24, R27, R28, R34), the counts
with the states that use them (R29, R35), a pending mode and a position with an open train in the path (R38, R39), and a part that
waits to leave or is held is in OBSERVE (R116). -/
def State.placed (s : State) : Prop :=
  s.framer.sound ∧
  (s.powered = true → s.link.bypassClosed = !(s.inPath || s.link.draining)) ∧
  (s.inPath = true → s.link.draining = false ∧ s.delay.length = 64) ∧
  (s.link.draining = true → s.delay.length ≤ 64) ∧ (s.link.drainTa = true → s.link.draining = true) ∧
  s.link.cleanCount ≤ 1 ∧ (s.link.cleanCount = 1 → s.link.state = .acquire) ∧
  s.link.heldCount ≤ 255 ∧ (s.link.heldCount ≠ 0 → s.link.state = .leaveWait ∨ s.link.state = .held) ∧
  (s.link.pendingMode ≠ .none → s.inPath = true ∧ s.framer.position ≠ .outside) ∧
  (∀ h, s.link.pendingMode = .bypass h → h ≤ 255 ∧ s.link.mode = .observe) ∧
  (∀ k, s.position = some k → 1 ≤ k ∧ k ≤ 31 ∧ s.inPath = true ∧ s.framer.position ≠ .outside) ∧
  (s.link.state = .leaveWait ∨ s.link.state = .held → s.link.mode = .observe) ∧
  (s.alert.noticeRun ≠ 0 → s.inPath = true ∧ s.framer.position = .body)

/-- The fields of one entry stand together as its state, condition and timing ask (R44, R49 to R53, R55, R95). -/
def Entry.lawful (e : Entry) : Prop :=
  let c := e.config
  let l := e.live
  (e.state = .free → e = Entry.empty) ∧
  (e.state ≠ .free →
    c.offset + (if c.wide = true then 2 else 1) ≤ 48 ∧ 1 ≤ c.deglitch ∧ c.deglitch ≤ 15 ∧ 1 ≤ c.missLimit ∧ c.missLimit ≤ 15 ∧
      c.period ≤ 255 ∧ c.slot ≤ 15) ∧
  (match l.condition with
    | .conforming => l.run = 0 ∧ l.recovered = false
    | .suspect => 1 ≤ l.run ∧ l.run < c.deglitch ∧ l.recovered = false
    | .tripped => l.run = c.deglitch) ∧
  (match l.timing with
    | .fresh => l.miss = 0
    | .late => 1 ≤ l.miss ∧ l.miss < c.missLimit
    | .stale => l.miss = c.missLimit ∧ l.since = 0) ∧
  (if c.period = 0 ∨ e.state ≠ .armed then l.timing = .fresh ∧ l.since = 0 else l.since < c.period) ∧
  (e.state = .loaded → l.condition = .conforming) ∧
  (l.previous.isSome = true → c.kind = .delta) ∧ l.trips ≤ 255 ∧ l.nonconforming ≤ 65535 ∧
  (e.state = .armed → l.trial = none) ∧
  (e.state = .trial → ∃ r, l.trial = some r ∧ r.incomplete = true) ∧
  (∀ r, l.trial = some r → r.seen ≤ 65535 ∧ r.nonconforming ≤ r.seen ∧ r.longestRun ≤ 255)

/-- Every entry is lawful; no two working entries hold one key (R59) and no two ARMED SUBSTITUTE entries name one slot (R58); an entry
is in TRIAL exactly while a trial of it runs (R169), and the running operation has not reached its end (R172 to R178). -/
def State.tableLawful (s : State) : Prop :=
  let working := fun i => (s.entry i).state = .armed ∨ (s.entry i).state = .trial
  let fills := fun i => (s.entry i).state = .armed ∧ (s.entry i).config.reaction = .substitute
  s.table.entries.length = 64 ∧ (∀ i, (s.entry i).lawful) ∧
  (∀ i j, i ≠ j → working i → working j →
    ¬ ((s.entry i).config.source = (s.entry j).config.source ∧ (s.entry i).config.channel = (s.entry j).config.channel)) ∧
  (∀ i j, i ≠ j → fills i → fills j → (s.entry i).config.slot ≠ (s.entry j).config.slot) ∧
  (∀ i, (s.entry i).state = .trial ↔ ∃ t, s.op.slot = .trial t ∧ t.entry = i) ∧ s.trialStreak ≤ 255 ∧
  match s.op.slot with
  | .idle => s.op.pendingAbort = .none
  | .capture c =>
    c.wanted ≤ 32 ∧ c.matched < c.wanted ∧ c.stored + c.lost = c.matched ∧ c.limit ≤ 255 ∧ c.without < c.limit
  | .trial t => t.limit ≤ 255 ∧ t.counted < t.limit

/-- All of them. -/
def State.lawful (s : State) : Prop := s.withinCapacity ∧ s.factorsAgree ∧ s.placed ∧ s.tableLawful

end Sys2Proof.Machine
end

