-- ==== Sys2Proof/Certificates/Slice0/Obligations.lean ====
section
/-! DEFINITION. The statements for the provers. -/

open Sys2Proof Sys2Proof.Machine

/-! ### The queue of commands -/

/-- The command at the front of the queue is the one a step runs, on the part with the queue's rest. -/
def Obligations.StepRunsTheFrontCommand : Prop :=
  ∀ (c : Instr) (rest : List Instr) (s : State),
    step { s with pending := c :: rest } = exec c { s with pending := rest }

/-- Every command answers a next state in every state, and leaves the commands that wait. That a command whose named event does not come
about answers the part unchanged, and that an ill-formed one runs as spelled, is the model's choice (logs 1 and 25). -/
def Obligations.EveryCommandAnswersANextState : Prop :=
  ∀ (c : Instr) (s : State), ∃ t, exec c s = .next t ∧ t.pending = s.pending

/-! ### The requests: reading the part -/

def Obligations.IdentifyReportsThePart : Prop :=
  ∀ (target tag : Byte) (operands : List Byte) (s : State), s.addressed target operands → 9 ≤ operands.length →
    exec (.identify target tag operands) s =
      .next ((s.afterRequest target tag 1#8 operands).replied target tag operands 0#8
        [93#8, 33#8, 6#8, 64#8, 3#8, 64#8, 16#8, 32#8, 64#8])

/-- The 20 bytes of the report, byte by byte (R191). -/
def Obligations.ReadStatusReportsTheState : Prop :=
  ∀ (target tag : Byte) (operands : List Byte) (s : State), s.addressed target operands → 20 ≤ operands.length →
      (∀ f, s.alert.levels.get f ≤ 3) →
    let bit := fun (b : Bool) (k : Nat) => if b then 2 ^ k else 0
    let byte := BitVec.ofNat 8
    let a := s.alert
    exec (.readStatus target tag operands) s =
      .next ((s.afterRequest target tag 2#8 operands).replied target tag operands 0#8
        [match s.link.mode with | .observe => 1#8 | .active => 2#8,
          match s.link.pendingMode with | .none => 0#8 | .observe => 1#8 | .active => 2#8 | .bypass _ => 3#8,
          match s.link.pendingMode with | .bypass h => byte h | _ => 0#8,
          byte (bit s.reaction.isolated 0),
          factorByte a.flags a.alertn,
          byte (a.levels.trip + 4 * a.levels.stale + 16 * a.levels.link + 64 * a.levels.qfull),
          byte (a.levels.slot + 4 * a.levels.isol + 16 * a.levels.opdone),
          byte a.threshold,
          byte (bit a.noticeEnable 0 + bit a.noticeWaiting 1),
          byte s.queue.items.length,
          match s.op.slot with | .idle => 0#8 | .capture _ => 1#8 | .trial _ => 2#8,
          match s.op.pendingAbort with | .none => 0#8 | .atTrip => 3#8 | .atTrain => 4#8,
          byte ((match s.op.last.kind with | .none => 0 | .capture => 1 | .trial => 2) +
            4 * (match s.op.last.cause with | .done => 0 | .timeout => 1 | .aborted => 2)),
          s.op.last.byte1, s.op.last.byte2, s.op.last.byte3,
          byte (s.op.fifo.length / 256), byte s.op.fifo.length,
          byte s.table.w0, byte s.table.w1])

/-- R154: k is the least of the depth, the room for 6-byte items in L-2 bytes, and a maximum above 0. -/
def Obligations.TakeIncidentsReturnsTheOldest : Prop :=
  ∀ (target tag maximum : Byte) (rest : List Byte) (s : State),
    let operands := maximum :: rest
    let depth := s.queue.items.length
    let room := (operands.length - 2) / 6
    let k := if maximum.toNat = 0 then min depth room else min (min depth room) maximum.toNat
    let item := fun x : Incident =>
      [x.sequence,
        (match x.kind with | .trip => 0#8 | .stale => 1#8 | .recover => 2#8 | .link => 3#8) +
          (if x.entry.isSome then 64#8 else 0#8) + (if x.value.isSome then 128#8 else 0#8),
        BitVec.ofNat 8 (x.entry.getD 0), x.train, highByte (x.value.getD 0#16), lowByte (x.value.getD 0#16)]
    let after := s.afterRequest target tag 5#8 operands
    s.addressed target operands → 2 ≤ operands.length →
    exec (.takeIncidents target tag operands) s =
      .next (({ after with queue := { s.queue with items := s.queue.items.drop k } }).replied target tag operands
        (if k < depth ∧ (maximum.toNat = 0 ∨ k < maximum.toNat) then 1#8 else 0#8)
        ([BitVec.ofNat 8 k, BitVec.ofNat 8 (depth - k)] ++ (s.queue.items.take k).flatMap item))

/-- R155, R189: one or two entry images, the second that of the entry whose index follows; the 24 bytes of an image from the entry's
fields, bits of one byte joined by or. -/
def Obligations.ReadEntryReturnsImages : Prop :=
  ∀ (target tag address count : Byte) (rest : List Byte) (s : State) (i : Nat),
    let operands := address :: count :: rest
    let after := s.afterRequest target tag 7#8 operands
    let byte := BitVec.ofNat 8
    let high := fun w : Word => w.extractLsb' 8 8
    let low := fun w : Word => w.extractLsb' 0 8
    let flag := fun (b : Bool) (bit : Byte) => if b = true then bit else 0#8
    let image : Entry → List Byte := fun e =>
      let c := e.config
      let l := e.live
      let previous := l.previous.getD 0#16
      let trial := fun f : TrialResults → Nat => match l.trial with | some r => f r | none => 0
      [(match e.state with | .free => 0#8 | .loaded => 1#8 | .armed => 2#8 | .trial => 3#8) |||
          (match l.condition with | .conforming => 0#8 | .suspect => 4#8 | .tripped => 8#8) ||| flag l.recovered 16#8 |||
          (match l.timing with | .fresh => 0#8 | .late => 32#8 | .stale => 64#8) ||| flag l.trial.isSome 128#8,
        c.source, c.channel, byte c.offset ||| flag c.wide 64#8 ||| flag c.signed 128#8,
        (match c.kind with | .window => 0#8 | .pattern => 1#8 | .delta => 2#8) |||
          (match c.reaction with | .pass => 0#8 | .mark => 4#8 | .substitute => 8#8 | .drop => 12#8 | .isolate => 16#8) |||
          flag c.latch 32#8 ||| flag l.previous.isSome 64#8 |||
          flag (match l.trial with | some r => r.incomplete | none => false) 128#8,
        high c.a, low c.a, high c.b, low c.b, byte (16 * c.deglitch) ||| byte l.run, byte c.period,
        byte (16 * c.missLimit) ||| byte l.miss, byte l.since, byte c.slot, high previous, low previous, byte l.trips,
        byte (l.nonconforming / 256), byte l.nonconforming, byte (trial (·.seen) / 256), byte (trial (·.seen)),
        byte (trial (·.nonconforming) / 256), byte (trial (·.nonconforming)), byte (trial (·.longestRun))]
    s.addressed target operands → 24 ≤ operands.length → s.resolve address = some i →
    exec (.readEntry target tag operands) s =
      .next (if count.toNat = 1 then after.replied target tag operands 0#8 (image (s.entry i))
        else if count.toNat = 2 then
          (if operands.length < 48 ∨ i = 63 then after.replied target tag operands 1#8 (image (s.entry i))
          else after.replied target tag operands 0#8 (image (s.entry i) ++ image (s.entry (i + 1))))
        else after.replied target tag operands 5#8 [])

/-- R156. -/
def Obligations.ReadSlotReturnsLengthAndBytes : Prop :=
  ∀ (target tag slot : Byte) (rest : List Byte) (s : State),
    let operands := slot :: rest
    let content := s.reaction.store.getD slot.toNat []
    let after := s.afterRequest target tag 13#8 operands
    s.addressed target operands →
    exec (.readSlot target tag operands) s =
      .next (if 15 < slot.toNat then after.replied target tag operands 5#8 []
        else after.replied target tag operands (if rest.length < content.length then 1#8 else 0#8)
          (BitVec.ofNat 8 content.length :: content.take rest.length))

/-! ### The requests: alerts -/

/-- R131, R157: the nine settings together, or none of them; the nine values before in either reply. -/
def Obligations.SetAlertsWritesAllNineOrNone : Prop :=
  ∀ (target tag l0 l1 l2 l3 l4 l5 l6 threshold enable : Byte) (rest : List Byte) (s : State),
    let operands := l0 :: l1 :: l2 :: l3 :: l4 :: l5 :: l6 :: threshold :: enable :: rest
    let a := s.alert
    let before := ([a.levels.trip, a.levels.stale, a.levels.link, a.levels.qfull, a.levels.slot, a.levels.isol,
      a.levels.opdone, a.threshold].map (BitVec.ofNat 8)) ++ [if a.noticeEnable then 1#8 else 0#8]
    let levels : PerFactor Nat :=
      { trip := l0.toNat, stale := l1.toNat, link := l2.toNat, qfull := l3.toNat, slot := l4.toNat, isol := l5.toNat
        opdone := l6.toNat }
    let after := s.afterRequest target tag 3#8 operands
    s.addressed target operands →
    exec (.setAlerts target tag operands) s =
      .next (if (∀ l ∈ [l0, l1, l2, l3, l4, l5, l6], l.toNat ≤ 3) ∧ 1 ≤ threshold.toNat ∧ threshold.toNat ≤ 3 then
          ({ after with
            alert := { after.alert with
              levels := levels
              threshold := threshold.toNat
              noticeEnable := enable.getLsbD 0
              noticeWaiting := a.noticeWaiting && enable.getLsbD 0
              alertn := reaches a.flags levels threshold.toNat } }).replied target tag operands 0#8 before
        else after.replied target tag operands 5#8 before)

/-- R134, R135, R158: the entry step over the scope, then the factor step over the mask; a scope above 2 clears nothing. -/
def Obligations.ClearAlertsReleasesThenClears : Prop :=
  ∀ (target tag mask scope address : Byte) (rest : List Byte) (s : State) (entries : List Entry),
    let operands := mask :: scope :: address :: rest
    let release : Entry → Entry := fun e =>
      if e.state = .armed ∧ e.live.condition = .tripped ∧ e.live.recovered = true then
        { e with live := { e.live with condition := .conforming, run := 0, recovered := false } }
      else e
    let f := s.alert.flags
    let flags : PerFactor Bool :=
      { trip := f.trip && !(mask.getLsbD 0 && entries.all fun e => e.live.condition != .tripped)
        stale := f.stale && !(mask.getLsbD 1 && entries.all fun e => e.live.timing != .stale)
        link := f.link && !mask.getLsbD 2
        qfull := f.qfull && !(mask.getLsbD 3 && decide (s.queue.items.length < 32))
        slot := f.slot && !mask.getLsbD 4
        isol := f.isol && !(mask.getLsbD 5 && !s.reaction.isolated)
        opdone := f.opdone && !mask.getLsbD 6 }
    let alertn := reaches flags s.alert.levels s.alert.threshold
    let after := s.afterRequest target tag 4#8 operands
    s.addressed target operands →
    ((scope.toNat = 0 ∧ entries = s.table.entries) ∨
      (scope.toNat = 1 ∧ ∃ i, s.resolve address = some i ∧ entries = s.table.entries.modify i release) ∨
      (scope.toNat = 2 ∧ entries = s.table.entries.map release) →
      exec (.clearAlerts target tag operands) s =
        .next (({ after with
          table := { after.table with entries := entries }
          alert := { after.alert with flags := flags, alertn := alertn } }).replied target tag operands 0#8
            [factorByte flags alertn])) ∧
    (2 < scope.toNat → exec (.clearAlerts target tag operands) s = .next (after.replied target tag operands 5#8 []))

/-! ### The requests: the table and the store -/

/-- R64, R159. -/
def Obligations.SetWindowsSetsBothOrNeither : Prop :=
  ∀ (target tag w0 w1 : Byte) (rest : List Byte) (s : State),
    let operands := w0 :: w1 :: rest
    let before := [BitVec.ofNat 8 s.table.w0, BitVec.ofNat 8 s.table.w1]
    let after := s.afterRequest target tag 6#8 operands
    s.addressed target operands →
    exec (.setWindows target tag operands) s =
      .next (if w0.toNat ≤ 7 ∧ w1.toNat ≤ 7 then
          ({ after with table := { after.table with w0 := w0.toNat, w1 := w1.toNat } }).replied target tag operands 0#8 before
        else after.replied target tag operands 5#8 before)

/-- R65: an address byte below 64 is an index; 128 to 135 and 136 to 143 are places in the slices of W0 and W1; no other byte
names an entry. -/
def Obligations.AnAddressNamesAnEntry : Prop :=
  ∀ (s : State) (address : Byte),
    (address.toNat < 64 → s.resolve address = some address.toNat) ∧
    (∀ place, place < 8 → address.toNat = 128 + place → s.resolve address = some (8 * s.table.w0 + place)) ∧
    (∀ place, place < 8 → address.toNat = 136 + place → s.resolve address = some (8 * s.table.w1 + place)) ∧
    ((64 ≤ address.toNat ∧ address.toNat < 128) ∨ 144 ≤ address.toNat → s.resolve address = none)

/-- R56, R57, R160: ENTRY-BUSY before the configuration is looked at, BAD-VALUE when a check of R56 fails, and otherwise the
entry LOADED with the configuration and the starting values; the twelve configuration bytes before (R189) in every reply. -/
def Obligations.LoadEntryLoadsACheckedConfiguration : Prop :=
  ∀ (target tag address source channel field kind a1 a0 b1 b0 d p m slot : Byte) (rest : List Byte) (s : State) (i : Nat)
    (template : Template) (reaction : Reaction),
    let operands := address :: source :: channel :: field :: kind :: a1 :: a0 :: b1 :: b0 :: d :: p :: m :: slot :: rest
    let a : Word := a1 ++ a0
    let b : Word := b1 ++ b0
    let offset := field.toNat % 64
    let width := if field.getLsbD 6 then 2 else 1
    let templateCode := kind.toNat % 4
    let reactionCode := kind.toNat / 4 % 8
    let ranges := offset + width ≤ 48 ∧ 1 ≤ d.toNat ∧ d.toNat ≤ 15 ∧ 1 ≤ m.toNat ∧ m.toNat ≤ 15 ∧ slot.toNat ≤ 15 ∧
      templateCode ≤ 2 ∧ reactionCode ≤ 4
    let window := templateCode = 0 → if field.getLsbD 7 then a.toInt ≤ b.toInt else a.toNat ≤ b.toNat
    let pattern := templateCode = 1 → b &&& ~~~a = 0#16
    let c := (s.entry i).config
    let before : List Byte :=
      [c.source, c.channel, BitVec.ofNat 8 c.offset ||| (if c.wide = true then 64#8 else 0#8) ||| (if c.signed = true then 128#8 else 0#8),
        (match c.kind with | .window => 0#8 | .pattern => 1#8 | .delta => 2#8) |||
          (match c.reaction with | .pass => 0#8 | .mark => 4#8 | .substitute => 8#8 | .drop => 12#8 | .isolate => 16#8) |||
          (if c.latch = true then 32#8 else 0#8),
        c.a.extractLsb' 8 8, c.a.extractLsb' 0 8, c.b.extractLsb' 8 8, c.b.extractLsb' 0 8, BitVec.ofNat 8 c.deglitch,
        BitVec.ofNat 8 c.period, BitVec.ofNat 8 c.missLimit, BitVec.ofNat 8 c.slot]
    let after := s.afterRequest target tag 8#8 operands
    s.addressed target operands → s.resolve address = some i →
    ((s.entry i).state = .armed ∨ (s.entry i).state = .trial →
      exec (.loadEntry target tag operands) s = .next (after.replied target tag operands 7#8 before)) ∧
    ((s.entry i).state = .free ∨ (s.entry i).state = .loaded →
      (¬ (ranges ∧ window ∧ pattern) →
        exec (.loadEntry target tag operands) s = .next (after.replied target tag operands 5#8 before)) ∧
      (ranges ∧ window ∧ pattern →
        [.window, .pattern, .delta][templateCode]? = some template →
        [.pass, .mark, .substitute, .drop, .isolate][reactionCode]? = some reaction →
        exec (.loadEntry target tag operands) s =
          .next (({ after with
            table := { after.table with
              entries := after.table.entries.set i
                { state := .loaded
                  config :=
                    { source := source, channel := channel, offset := offset, wide := field.getLsbD 6
                      signed := field.getLsbD 7, kind := template, a := a, b := b, deglitch := d.toNat, period := p.toNat
                      missLimit := m.toNat, reaction := reaction, latch := kind.getLsbD 5, slot := slot.toNat }
                  live := Live.starting } } }).replied target tag operands 0#8 before)))

/-- R58, R161: by the entry's state, then the key, then the substitution slot. -/
def Obligations.ArmPutsALoadedEntryToWork : Prop :=
  ∀ (target tag address : Byte) (rest : List Byte) (s : State) (i : Nat),
    let operands := address :: rest
    let e := s.entry i
    let keyTaken := ∃ j, j ≠ i ∧ ((s.entry j).state = .armed ∨ (s.entry j).state = .trial) ∧
      (s.entry j).config.source = e.config.source ∧ (s.entry j).config.channel = e.config.channel
    let slotTaken := e.config.reaction = .substitute ∧ ∃ j, j ≠ i ∧ (s.entry j).state = .armed ∧
      (s.entry j).config.reaction = .substitute ∧ (s.entry j).config.slot = e.config.slot
    let after := s.afterRequest target tag 9#8 operands
    let index := BitVec.ofNat 8 i
    let answers := fun (t : State) (result state : Byte) =>
      exec (.arm target tag operands) s = .next (t.replied target tag operands result [index, state])
    s.addressed target operands → 2 ≤ operands.length → s.resolve address = some i → i < s.table.entries.length →
    (e.state = .free → answers after 6#8 0#8) ∧ (e.state = .trial → answers after 7#8 3#8) ∧
    (e.state = .armed → answers after 0#8 2#8) ∧
    (e.state = .loaded →
      (keyTaken → answers after 8#8 1#8) ∧
      (¬ keyTaken → slotTaken → answers after 9#8 1#8) ∧
      (¬ keyTaken → ¬ slotTaken →
        answers { after with
          table := { after.table with
            entries := after.table.entries.set i { e with state := .armed, live := Live.starting } } } 0#8 2#8))

/-- R60, R162: an ARMED entry becomes LOADED, CONFORMING and FRESH, its counters and previous value kept. -/
def Obligations.DisarmTakesAnArmedEntryOut : Prop :=
  ∀ (target tag address : Byte) (rest : List Byte) (s : State) (i : Nat),
    let operands := address :: rest
    let e := s.entry i
    let after := s.afterRequest target tag 10#8 operands
    let answers := fun (t : State) (result state : Byte) =>
      exec (.disarm target tag operands) s = .next (t.replied target tag operands result [BitVec.ofNat 8 i, state])
    s.addressed target operands → 2 ≤ operands.length → s.resolve address = some i → i < s.table.entries.length →
    (e.state = .free → answers after 6#8 0#8) ∧ (e.state = .trial → answers after 7#8 3#8) ∧
    (e.state = .loaded → answers after 0#8 1#8) ∧
    (e.state = .armed →
      answers { after with
        table := { after.table with
          entries := after.table.entries.set i
            { e with
              state := .loaded
              live := { e.live with
                condition := .conforming, recovered := false, run := 0, timing := .fresh, since := 0, miss := 0 } } } }
        0#8 1#8)

/-- R61, R163: a LOADED entry becomes FREE with the zero value of every field. -/
def Obligations.FreeEmptiesALoadedEntry : Prop :=
  ∀ (target tag address : Byte) (rest : List Byte) (s : State) (i : Nat),
    let operands := address :: rest
    let e := s.entry i
    let after := s.afterRequest target tag 11#8 operands
    let answers := fun (t : State) (result state : Byte) =>
      exec (.free target tag operands) s = .next (t.replied target tag operands result [BitVec.ofNat 8 i, state])
    s.addressed target operands → 2 ≤ operands.length → s.resolve address = some i → i < s.table.entries.length →
    (e.state = .free → answers after 0#8 0#8) ∧ (e.state = .trial → answers after 7#8 3#8) ∧
    (e.state = .armed → answers after 7#8 2#8) ∧
    (e.state = .loaded →
      answers { after with table := { after.table with entries := after.table.entries.set i Entry.empty } } 0#8 0#8)

/-- R124, R164: the three checks in order, then the slot replaced as a whole; the length before in every reply whose slot number
is 15 or below. -/
def Obligations.LoadSlotReplacesTheSlot : Prop :=
  ∀ (target tag slot length : Byte) (rest : List Byte) (s : State),
    let operands := slot :: length :: rest
    let before := [BitVec.ofNat 8 (s.reaction.store.getD slot.toNat []).length]
    let after := s.afterRequest target tag 12#8 operands
    s.addressed target operands →
    exec (.loadSlot target tag operands) s =
      .next (if 15 < slot.toNat then after.replied target tag operands 5#8 [0#8]
        else if 48 < length.toNat then after.replied target tag operands 5#8 before
        else if rest.length < length.toNat then after.replied target tag operands 3#8 before
        else
          ({ after with
            reaction := { after.reaction with store := after.reaction.store.set slot.toNat (rest.take length.toNat) } }).replied
              target tag operands 0#8 before)

/-! ### The requests: mode, release and restart -/

/-- R37, R165: OBSERVE and ACTIVE are always accepted; BYPASS is refused in ACTIVE, then under isolation, then while an operation
runs. What is accepted becomes the pending mode and nothing else changes; the mode in force changes at the train's end. -/
def Obligations.SetModeStoresThePendingMode : Prop :=
  ∀ (target tag held : Byte) (rest : List Byte) (s : State),
    let operands := fun mode : Byte => mode :: held :: rest
    let after := fun mode : Byte => s.afterRequest target tag 14#8 (operands mode)
    let force := match s.link.mode with | .observe => 1#8 | .active => 2#8
    let stored := fun (mode : Byte) (pending : PendingMode) (data : List Byte) =>
      ({ after mode with link := { s.link with pendingMode := pending } }).replied target tag (operands mode) 0#8 data
    let kept : List Byte :=
      match s.link.pendingMode with
      | .none => [force, 0#8, 0#8]
      | .observe => [force, 1#8, 0#8]
      | .active => [force, 2#8, 0#8]
      | .bypass h => [force, 3#8, BitVec.ofNat 8 h]
    s.addressed target (operands 1#8) → 1 ≤ rest.length →
    exec (.setModeObserve target tag (held :: rest)) s = .next (stored 1#8 .observe [force, 1#8, 0#8]) ∧
    exec (.setModeActive target tag (held :: rest)) s = .next (stored 2#8 .active [force, 2#8, 0#8]) ∧
    exec (.setModeBypass target tag (held :: rest)) s =
      .next (if s.link.mode = .active ∨ s.reaction.isolated = true then
          (after 3#8).replied target tag (operands 3#8) 11#8 kept
        else if s.op.slot ≠ .idle then (after 3#8).replied target tag (operands 3#8) 10#8 kept
        else stored 3#8 (.bypass held.toNat) [force, 3#8, held])

/-- R120, R129, R166: isolation ends and ISOL clears with it, ALERTn following; nothing else changes. -/
def Obligations.ReleaseEndsIsolation : Prop :=
  ∀ (target tag : Byte) (operands : List Byte) (s : State),
    let after := s.afterRequest target tag 15#8 operands
    let flags := { s.alert.flags with isol := false }
    s.addressed target operands → 1 ≤ operands.length →
    exec (.release target tag operands) s =
      .next (if s.reaction.isolated = true then
          ({ after with
            reaction := { s.reaction with isolated := false }
            alert := { after.alert with flags := flags, alertn := reaches flags s.alert.levels s.alert.threshold } }).replied
              target tag operands 0#8 [1#8]
        else after.replied target tag operands 0#8 [0#8])

/-- R64, R67, R68, R121, R123, R145, R167, R183. WARM: ARMED entries start afresh, the entry on trial becomes LOADED without results, a
running operation ends ABORTED without OPDONE, isolation ends, the FIFO and the queue are emptied and no factor is pending. TABLE: the
same, with every entry FREE, the windows at 0 and 1 and the store empty. The trial streak of no trial is the model's (log 20). -/
def Obligations.RestartStartsThePartAfresh : Prop :=
  ∀ (target tag : Byte) (rest : List Byte) (s : State),
    let after := fun scope : Byte => s.afterRequest target tag 16#8 (scope :: rest)
    let afresh : Entry → Entry := fun e =>
      if e.state = .armed then
        { e with
          live := { e.live with
            condition := .conforming, recovered := false, run := 0, timing := .fresh, since := 0, miss := 0 } }
      else e
    let restarted := fun (scope : Byte) (table : WatchTable) (store : List (List Byte)) =>
      ({ after scope with
        table := table
        trialStreak := match s.op.slot with | .trial _ => 0 | _ => s.trialStreak
        reaction := { isolated := false, store := store }
        alert := { (after scope).alert with flags := AlertUnit.reset.flags, noticeWaiting := false, alertn := false }
        queue := { s.queue with items := [] }
        op :=
          { slot := .idle
            pendingAbort := if s.op.slot = OperationSlot.idle then s.op.pendingAbort else .none
            last := resultOf s.op.slot .aborted s.op.last
            fifo := [] } }).replied target tag (scope :: rest) 0#8 [scope]
    s.addressed target (0#8 :: rest) →
    exec (.restartWarm target tag rest) s =
      .next (restarted 0#8
        { s.table with entries := (entriesOffTrial s.op.slot (fun _ => none) s.table.entries).map afresh } s.reaction.store) ∧
    exec (.restartTable target tag rest) s =
      .next (restarted 1#8 { entries := List.replicate 64 Entry.empty, w0 := 0, w1 := 1 } (List.replicate 16 []))

/-! ### The requests: the long operations -/

/-- R172: the three checks in order; on acceptance the FIFO emptied if discard is set and a capture with its counts at 0. -/
def Obligations.StartCaptureStartsACapture : Prop :=
  ∀ (target tag source channel flags k limit : Byte) (rest : List Byte) (s : State),
    let operands := source :: channel :: flags :: k :: limit :: rest
    let after := s.afterRequest target tag 17#8 operands
    let discard := flags.getLsbD 1
    let held := fun n : Nat => [BitVec.ofNat 8 (n / 256), BitVec.ofNat 8 n]
    let count := s.op.fifo.length
    s.addressed target operands →
    exec (.startCapture target tag operands) s =
      .next (if s.op.slot ≠ .idle then after.replied target tag operands 10#8 (held count)
        else if k.toNat = 0 ∨ 32 < k.toNat ∨ limit.toNat = 0 then after.replied target tag operands 5#8 (held count)
        else if count ≠ 0 ∧ discard = false then after.replied target tag operands 12#8 (held count)
        else
          ({ after with
            op := { s.op with
              slot := .capture
                { source := source, channel := channel, channelAny := flags.getLsbD 0, wanted := k.toNat, limit := limit.toNat
                  matched := 0, stored := 0, lost := 0, without := 0 }
              pendingAbort := .none
              fifo := if discard = true then [] else s.op.fifo } }).replied target tag operands 0#8
            (held (if discard = true then 0 else count)))

/-- R176: b is the smaller of the bytes held and L-3; they leave from the head and stand in the reply in order. -/
def Obligations.ReadCaptureTakesFromTheHead : Prop :=
  ∀ (target tag : Byte) (operands : List Byte) (s : State),
    let after := s.afterRequest target tag 18#8 operands
    let b := min s.op.fifo.length (operands.length - 3)
    let rest := s.op.fifo.length - b
    s.addressed target operands → 3 ≤ operands.length →
    exec (.readCapture target tag operands) s =
      .next (({ after with op := { s.op with fifo := s.op.fifo.drop b } }).replied target tag operands
        (if rest = 0 then 0#8 else 1#8)
        ([BitVec.ofNat 8 b, BitVec.ofNat 8 (rest / 256), BitVec.ofNat 8 rest] ++ s.op.fifo.take b))

/-- R62, R177: the checks in order; on acceptance the entry is in TRIAL with fresh results and the slot holds the trial. -/
def Obligations.StartTrialPutsAnEntryOnTrial : Prop :=
  ∀ (target tag address limit : Byte) (rest : List Byte) (s : State) (i : Nat),
    let operands := address :: limit :: rest
    let e := s.entry i
    let keyArmed := ∃ j, (s.entry j).state = .armed ∧ (s.entry j).config.source = e.config.source ∧
      (s.entry j).config.channel = e.config.channel
    let after := s.afterRequest target tag 19#8 operands
    let answers := fun (t : State) (result state : Byte) =>
      exec (.startTrial target tag operands) s = .next (t.replied target tag operands result [BitVec.ofNat 8 i, state])
    s.addressed target operands → s.resolve address = some i → i < s.table.entries.length →
    (e.state = .free → answers after 6#8 0#8) ∧ (e.state = .armed → answers after 7#8 2#8) ∧
    (e.state = .trial → answers after 7#8 3#8) ∧
    (e.state = .loaded →
      (s.op.slot ≠ .idle → answers after 10#8 1#8) ∧
      (s.op.slot = .idle →
        (limit.toNat = 0 → answers after 5#8 1#8) ∧
        (limit.toNat ≠ 0 →
          (keyArmed → answers after 8#8 1#8) ∧
          (¬ keyArmed →
            (s.reaction.isolated = true → answers after 13#8 1#8) ∧
            (s.reaction.isolated = false →
              answers { after with
                table := { s.table with
                  entries := s.table.entries.set i
                    { e with
                      state := .trial
                      live := { e.live with
                        condition := .conforming, recovered := false, run := 0, previous := none
                        trial := some { seen := 0, nonconforming := 0, longestRun := 0, incomplete := true } } } }
                trialStreak := 0
                op := { s.op with
                  slot := .trial { entry := i, limit := limit.toNat, counted := 0 }, pendingAbort := .none } } 0#8 3#8)))))

/-- R130, R170, R171, R179: NOW ends a running operation ABORTED and raises OPDONE; on an idle slot it has no effect. QUIET ends it without
OPDONE, and clears a pending OPDONE in any case. The trial streak of no trial is the model's (log 20). -/
def Obligations.AbortNowAndQuietEndTheOperation : Prop :=
  ∀ (target tag : Byte) (rest : List Byte) (s : State),
    let after := fun condition : Byte => s.afterRequest target tag 20#8 (condition :: rest)
    let flags := { s.alert.flags with opdone := false }
    let cleared : State :=
      { after 2#8 with
        alert := { (after 2#8).alert with flags := flags, alertn := reaches flags s.alert.levels s.alert.threshold } }
    let ended := fun t : State =>
      { t with
        table := { s.table with
          entries := entriesOffTrial s.op.slot (fun r => r.map fun x => { x with incomplete := true }) s.table.entries }
        trialStreak := match s.op.slot with | .trial _ => 0 | _ => s.trialStreak
        op := { s.op with slot := .idle, pendingAbort := .none, last := resultOf s.op.slot .aborted s.op.last } }
    let now := fun (t : State) (data : List Byte) =>
      exec (.abortNow target tag rest) s = .next (t.replied target tag (1#8 :: rest) 0#8 data)
    let quiet := fun (t : State) (data : List Byte) =>
      exec (.abortQuiet target tag rest) s = .next (t.replied target tag (2#8 :: rest) 0#8 data)
    let stopped : State := { ended (after 1#8) with alert := (after 1#8).alert.raise .opdone }
    s.addressed target (1#8 :: rest) → 2 ≤ rest.length →
    (∀ c, s.op.slot = .capture c → now stopped [1#8, 0#8, 0#8] ∧ quiet (ended cleared) [1#8, 0#8, 0#8]) ∧
    (∀ t, s.op.slot = .trial t → now stopped [2#8, 0#8, 0#8] ∧ quiet (ended cleared) [2#8, 0#8, 0#8]) ∧
    (s.op.slot = .idle → s.op.pendingAbort = .none → now (after 1#8) [0#8, 0#8, 0#8] ∧ quiet cleared [0#8, 0#8, 0#8])

/-- R179: AT-TRIP and AT-TRAIN become the pending abort of a running operation, replacing any stored one; no effect on an idle
slot. -/
def Obligations.AbortAtStoresThePendingAbort : Prop :=
  ∀ (target tag : Byte) (rest : List Byte) (s : State),
    let code := match s.op.slot with | .idle => 0#8 | .capture _ => 1#8 | .trial _ => 2#8
    let stored := fun (condition : Byte) (p : PendingAbort) =>
      let after := s.afterRequest target tag 20#8 (condition :: rest)
      if s.op.slot = .idle then after.replied target tag (condition :: rest) 0#8 [code, code, 0#8]
      else ({ after with op := { s.op with pendingAbort := p } }).replied target tag (condition :: rest) 0#8
        [code, code, condition]
    s.addressed target (3#8 :: rest) → 2 ≤ rest.length → (s.op.slot = .idle → s.op.pendingAbort = .none) →
    exec (.abortAtTrip target tag rest) s = .next (stored 3#8 .atTrip) ∧
    exec (.abortAtTrain target tag rest) s = .next (stored 4#8 .atTrain)

/-! ### The requests: refusals that all share, broadcasts, and what is not taken -/

/-- R65, R147, R150, R151: an addressed request of a code outside 1 to 20 is answered with BAD-CODE; one shorter than its minimum with
BAD-LENGTH; one that names no entry by its address with BAD-ADDRESS: READ ENTRY, LOAD ENTRY, ARM, DISARM, FREE and START TRIAL always,
CLEAR ALERTS with scope 1. R165, R167, R179: a mode, scope or condition that is none of those coded is answered with BAD-VALUE (no row of
the table spells such a request; as a command it is BAD_CODE's record with the known code, log 25; the ABORT's reply data is log 16). No
other state changes. -/
def Obligations.ARefusedRequestChangesNothing : Prop :=
  ∀ (c : Instr) (q : Request) (s : State), requestOf c = some q → s.addressed q.target q.operands →
    let answers := fun (result : Byte) (data : List Byte) =>
      exec c s = .next ((s.afterRecord q.wire).replied q.target q.tag q.operands result data)
    let known := 1 ≤ q.code.toNat ∧ q.code.toNat ≤ 20
    let first := q.operands.getD 0 0#8
    let slot := match s.op.slot with | .idle => 0#8 | .capture _ => 1#8 | .trial _ => 2#8
    (¬ known → answers 2#8 []) ∧
    (known → q.operands.length < minimumLength q.code → answers 3#8 []) ∧
    (minimumLength q.code ≤ q.operands.length →
      ((q.code ∈ [7#8, 8#8, 9#8, 10#8, 11#8, 19#8] ∧ s.resolve first = none) ∨
          (q.code = 4#8 ∧ q.operands.getD 1 0#8 = 1#8 ∧ s.resolve (q.operands.getD 2 0#8) = none) →
        answers 4#8 []) ∧
      (q.code = 14#8 → first.toNat = 0 ∨ 3 < first.toNat →
        answers 5#8
          [match s.link.mode with | .observe => 1#8 | .active => 2#8,
            match s.link.pendingMode with | .none => 0#8 | .observe => 1#8 | .active => 2#8 | .bypass _ => 3#8,
            match s.link.pendingMode with | .bypass h => BitVec.ofNat 8 h | _ => 0#8]) ∧
      (q.code = 16#8 → 1 < first.toNat → answers 5#8 [first]) ∧
      (q.code = 20#8 → first.toNat = 0 ∨ 4 < first.toNat →
        answers 5#8
          [slot, slot, match s.op.pendingAbort with | .none => 0#8 | .atTrip => 3#8 | .atTrain => 4#8]))

/-- R11: the check of "the bytes covered", whose test bytes give 10673; and a record with its check appended checks to 0, which is how a
receiver of the same generator can tell it (read from the computation, not stated by the spec). -/
def Obligations.TheCheckIsTheCyclicCheck : Prop :=
  let bit : Word → Bool → Word := fun r b => (r <<< 1) ^^^ (if r.getLsbD 15 = b then 0#16 else 4129#16)
  (∀ (covered : List Byte),
    checkOf covered = covered.foldl (fun r x => [7, 6, 5, 4, 3, 2, 1, 0].foldl (fun r k => bit r (x.getLsbD k)) r) 65535#16) ∧
  checkOf [49#8, 50#8, 51#8, 52#8, 53#8, 54#8, 55#8, 56#8, 57#8] = 41#8 ++ 177#8 ∧
  (∀ (covered : List Byte),
    checkOf (covered ++ [(checkOf covered).extractLsb' 8 8, (checkOf covered).extractLsb' 0 8]) = 0#16)

/-- R147: a broadcast CLEAR ALERTS, SET MODE, RELEASE, RESTART or ABORT does to the part what the addressed form would do to it,
whatever its position, but for the reply: the request's own symbols stay in the Delay Line as they arrived. -/
def Obligations.ABroadcastIsExecutedWithoutAReply : Prop :=
  ∀ (c b : Instr) (q : Request) (s t : State), requestOf c = some q → requestOf b = some { q with target := 0#8 } →
    q.code ∈ broadcastCodes → q.target ≠ 0#8 → s.readyFor (q.operands.length + 7) → q.operands.length ≤ 48 →
    exec c { s with position := some q.target.toNat } = .next t →
    exec b s = .next { t with
      position := s.position, delay := (s.afterRecord (Request.wire { q with target := 0#8 })).delay }

/-- R146, R147: a broadcast of any other code is ignored, and so is a request to a target that is not the part's position: it
arrives, leaves as it arrived, and changes no other state. -/
def Obligations.ARequestNotTakenPasses : Prop :=
  ∀ (c : Instr) (q : Request) (s : State), requestOf c = some q → s.readyFor (q.operands.length + 7) →
    q.operands.length ≤ 48 →
    (q.target = 0#8 ∧ q.code ∉ broadcastCodes) ∨ (q.target ≠ 0#8 ∧ s.position ≠ some q.target.toNat) →
    exec c s = .next (s.afterRecord q.wire)

/-- R148, R21: a request whose completion is the 2048th symbol of its train is executed and answered, and then the train ends by the
limit. -/
def Obligations.ARequestAtTheLimitIsAnsweredBeforeTheBreak : Prop :=
  ∀ (c : Instr) (q : Request) (s u : State), requestOf c = some q →
    s.addressed q.target q.operands → exec c s = .next u →
    exec c { s with framer := { s.framer with symbolCount := 2048 - (q.operands.length + 7) } } =
      .next (({ u with framer := { u.framer with symbolCount := 2048 } }).endTrain false)


/-! ### Factors and incidents -/

/-- R125, R132, R139, R141: a factor raised while pending stays as it is; a rise sets the flag, the line and, if its level reaches the
threshold and notices are enabled, the waiting notice and its cause. An incident joins with the counter's number, or is refused at depth
32 and raises QFULL. -/
def Obligations.AFactorRisesAndAnIncidentJoins : Prop :=
  (∀ (f : Factor) (s : State),
    let flags := s.alert.flags.set f true
    let reached := s.alert.noticeEnable && decide (s.alert.threshold ≤ s.alert.levels.get f)
    (s.alert.flags.get f = true → s.raise f = s) ∧
    (s.alert.flags.get f = false →
      s.raise f = { s with
        alert := { s.alert with
          flags := flags
          noticeWaiting := s.alert.noticeWaiting || reached
          noticeCause := if reached = true then f else s.alert.noticeCause
          alertn := reaches flags s.alert.levels s.alert.threshold } })) ∧
  (∀ (kind : IncidentKind) (entry : Option Nat) (value : Option Word) (s : State),
    s.pushIncident kind entry value =
      if s.queue.items.length < 32 then
        { s with
          queue :=
            { items := s.queue.items ++
                [{ sequence := s.queue.counter, kind := kind, entry := entry, train := s.framer.sequence, value := value }]
              counter := s.queue.counter + 1#8 } }
      else s.raise .qfull)

/-! ### Supply, reset and time -/

/-- R3, R12, R27, R39, R68, R121, R123, R145, R184: what power-on and RESETn leave, with every block written out. Where the spec gives no
reset value the value is the model's own: the notice cause is log 6, the trial streak log 20. RESETn low without the supply moves the pin
alone (log 9), POWER_ON keeps the RESETn level (log 22), and RESETN_RELEASE with RESETn high already does nothing (log 8). While RESETn is
low with the supply every step leaves the blocks at these values (R27). -/
def Obligations.EveryResetSetsEveryBlock : Prop :=
  ∀ (rate0 rate1 : Bool) (s : State),
    let selected := if rate1 = true then (if rate0 = true then Rate.million100 else .million50)
      else if rate0 = true then .million25 else .million10
    let flags : PerFactor Bool := ⟨false, false, false, false, false, false, false⟩
    let nothing : EntryConfig :=
      { source := 0#8, channel := 0#8, offset := 0, wide := false, signed := false, kind := .window, a := 0#16, b := 0#16
        deglitch := 0, period := 0, missLimit := 0, reaction := .pass, latch := false, slot := 0 }
    let starting : Live :=
      { condition := .conforming, recovered := false, run := 0, timing := .fresh, since := 0, miss := 0, previous := none
        trips := 0, nonconforming := 0, trial := none }
    let fresh := fun (powered resetnHigh : Bool) (rate : Rate) =>
      ({ powered := powered, resetnHigh := resetnHigh, rate := rate, dn := []
         framer :=
          { position := .outside, slotCount := 0, flags := 0#8, sequence := 0#8, statusBytes := [], symbolCount := 0
            trainFaulted := false, strayReported := false, signal := .present, silence := 0 }
         link :=
          { state := .acquire, cleanCount := 0, mode := .observe, pendingMode := .none, heldCount := 0, bypassClosed := true
            draining := false, drainTa := false }
         position := none
         delay := List.replicate 64 .fill
         table := { entries := List.replicate 64 { state := .free, config := nothing, live := starting }, w0 := 0, w1 := 1 }
         trialStreak := 0
         reaction := { isolated := false, store := List.replicate 16 [] }
         alert :=
          { flags := flags, levels := { trip := 3, stale := 2, link := 1, qfull := 1, slot := 1, isol := 3, opdone := 0 }
            threshold := 1, noticeEnable := false, noticeWaiting := false, noticeCause := .trip, noticeRun := 0, alertn := false }
         queue := { items := [], counter := 0#8 }
         op :=
          { slot := .idle, pendingAbort := .none
            last := { kind := .none, cause := .done, byte1 := 0#8, byte2 := 0#8, byte3 := 0#8 }, fifo := [] }
         pending := s.pending } : State)
    let heldAtReset : State → Prop := fun u =>
      u.powered = true → u.resetnHigh = false → u = { fresh true false u.rate with dn := u.dn, pending := u.pending }
    (heldAtReset s → ∀ t, step s = .next t → heldAtReset t) ∧
    exec (.powerOn rate0 rate1) s = .next (fresh true s.resetnHigh selected) ∧
    exec .resetnAssert s =
      .next (if s.powered = true then fresh true false s.rate else { s with resetnHigh := false, dn := [] }) ∧
    exec (.resetnRelease rate0 rate1) s =
      .next (if s.resetnHigh = true then { s with dn := [] }
        else { s with resetnHigh := true, dn := [], rate := if s.powered = true then selected else s.rate })

/-- Without its supply the part does not drive ALERTn and its passive bypass joins UP to DN (R132, 00 "Pins and package"); what the
registers then hold is kept, which is the model's choice (log 9). Without the supply an arrival only passes; with RESETn low it passes by
R27, and that the Framer does not take it is the model's reading (log 8). -/
def Obligations.AnUnpoweredPartOnlyPassesTheLine : Prop :=
  ∀ (s : State),
    exec .powerLoss s =
      .next { s with
        powered := false, dn := []
        link := { s.link with bypassClosed := true, draining := false, drainTa := false }
        alert := { s.alert with alertn := false } } ∧
    (s.powered = false ∨ s.resetnHigh = false → ∀ x, exec (.symbolArrival x) s = .next { s with dn := [x] })

/-- With no command waiting one symbol time passes without an arrival: the timer of R23 counts, and a drain sends one symbol (R34). That
a step on an empty queue is a symbol time is the model's choice (log 2). -/
def Obligations.AnIdleStepIsASymbolTime : Prop :=
  ∀ (s : State), s.pending = [] →
    let counted : Framer → Framer := fun f => if f.signal = .present then { f with silence := f.silence + 1 } else f
    let switched : Link := { s.link with bypassClosed := true, draining := false, drainTa := false }
    (s.running = false → step s = .next { s with dn := [] }) ∧
    (s.running = true → s.link.draining = false →
      (s.framer.signal = .lost → step s = .next { s with dn := [] }) ∧
      (s.framer.signal = .present → s.framer.silence < 127 → step s = .next { s with dn := [], framer := counted s.framer }) ∧
      (s.framer.signal = .present → s.framer.silence = 127 → step s = exec .lossOfSignal s)) ∧
    (s.running = true → s.link.draining = true → s.framer.signal = .lost ∨ s.framer.silence < 127 →
      (s.delay = [] → step s =
        .next { s with
          dn := if s.link.drainTa = true then [.readable .ta] else []
          link := switched, framer := counted s.framer }) ∧
      (∀ x, s.delay = [x] → s.link.drainTa = false →
        step s = .next { s with dn := [.readable x], delay := [], link := switched, framer := counted s.framer }) ∧
      (∀ x rest, s.delay = rest ++ [x] → rest ≠ [] ∨ s.link.drainTa = true →
        step s = .next { s with dn := [.readable x], delay := rest, framer := counted s.framer }))

/-- R23, R33: the report of cause 5, the end of an open train without a report, and the Link Controller's answer; a drain still on is
over first (R34), and while the signal is lost nothing more is declared. That the command stands for the rest of the 128 symbol times
is the model's choice (log 2). -/
def Obligations.LossOfSignalEndsTheTrainAndDrainsThePart : Prop :=
  ∀ (s : State), s.running = true →
    (s.link.draining = false →
      (s.framer.signal = .lost → exec .lossOfSignal s = .next { s with dn := [] }) ∧
      (s.framer.signal = .present →
        let reported := (({ s with dn := [], framer := { s.framer with signal := .lost, silence := 128 } } : State).raise
          .link).pushIncident .link none (some 5#16)
        let ended := if s.framer.position = .outside then reported else reported.trainEnd false
        let l := ended.link
        let draining := { l with draining := true, drainTa := s.framer.trainOpen }
        exec .lossOfSignal s =
          .next { ended with
            link :=
              match l.state with
              | .acquire => { l with cleanCount := 0 }
              | .joinWait => { l with state := .acquire, cleanCount := 0 }
              | .inline => { draining with state := .acquire, cleanCount := 0 }
              | .leaveWait => { draining with state := .held }
              | .held => l })) ∧
    (s.link.draining = true →
      let drained : State :=
        { s with
          dn := (s.delay.reverse ++ if s.link.drainTa = true then [Symbol.ta] else []).map .readable, delay := []
          link := { s.link with bypassClosed := true, draining := false, drainTa := false } }
      exec .drainEnd s = .next drained ∧
      (s.framer.signal = .lost → exec .lossOfSignal s = .next drained) ∧
      (s.framer.signal = .present →
        ∃ t, exec .lossOfSignal s = .next t ∧ exec .lossOfSignal drained = .next { t with dn := [] } ∧ t.dn = drained.dn)) ∧
    (s.link.draining = false → exec .drainEnd s = .next { s with dn := [] })

/-! ### Arrivals -/

/-- R28: while the bypass switch is closed DN carries what arrives as received, and of the part only the Framer, the Link Controller and
the train's own marks move. During a drain an arrival does not reach DN (R34). -/
def Obligations.ABypassedPartOnlyWatches : Prop :=
  ∀ (x : LineSymbol) (s : State), s.inPath = false →
    ∃ t, exec (.symbolArrival x) s = .next t ∧
      t.dn = (if s.running = true ∧ s.link.draining = true then [] else [x]) ∧
      t.table = s.table ∧ t.trialStreak = s.trialStreak ∧ t.reaction = s.reaction ∧ t.queue = s.queue ∧ t.op = s.op ∧
      { t.alert with noticeRun := 0 } = { s.alert with noticeRun := 0 } ∧
      (t.alert.noticeRun = s.alert.noticeRun ∨ t.alert.noticeRun = 0) ∧ (t.position = s.position ∨ t.position = none) ∧
      (t.delay = s.delay ∨ (s.link.state = .joinWait ∧ t.link.state = .inline)) ∧ t.link.mode = s.link.mode ∧
      t.powered = s.powered ∧ t.resetnHigh = s.resetnHigh ∧ t.rate = s.rate ∧ t.pending = s.pending

/-- R2, R24, R25: in the path an arrival sends the oldest held symbol to DN and takes the newest place, ERR for one that is unreadable.
Only an arrival that reads the header's last status byte, completes a record, places a notice or takes the part out of the path changes
any place beyond that, and then only places 1 to 55 or all of them. FILL outside a train does nothing else (R20). -/
def Obligations.AnArrivalInThePathMovesTheDelayLine : Prop :=
  ∀ (x : LineSymbol) (s : State) (oldest : Symbol) (rest : List Symbol),
    s.lawful → s.running = true → s.inPath = true → s.delay = rest ++ [oldest] →
    let readsHeader := s.framer.position = .status s.framer.slotCount ∧ ∃ b, x.taken = .data b
    let placesNotice := x.taken = .fill ∧ s.framer.position = .body ∧ s.alert.noticeWaiting = true ∧ 11 ≤ s.alert.noticeRun
    (∃ t, exec (.symbolArrival x) s = .next t ∧ t.dn = [.readable oldest] ∧ (t.link.state = .held → t.delay = []) ∧
      (t.link.state ≠ .held → t.delay.length = 64 ∧ t.delay.drop 55 = (x.taken :: rest).drop 55) ∧
      (t.link.state ≠ .held → ¬ readsHeader → s.completesRecord x = false → ¬ placesNotice → t.delay = x.taken :: rest)) ∧
    (x = .unreadable → x.taken = .err) ∧ (∀ y, x = .readable y → x.taken = y) ∧
    (x.taken = .fill → s.framer.position = .outside → s.link.state = .inline →
      exec (.symbolArrival x) s =
        .next { s with
          dn := [.readable oldest], delay := .fill :: rest
          framer := { s.framer with signal := .present, silence := 0 } })

/-- R13, R39, R142, R181: a TS opens a train; in the path a pending AT-TRAIN abort then acts. With a train open it closes that train
first. The train sequence number's 0 until the third header byte is the model's reading (log 14), the trial streak's 0 after the abort of a
trial the model's choice (log 20). -/
def Obligations.ATrainStartOpensATrain : Prop :=
  ∀ (s : State), s.running = true →
    let opened : Framer → Framer := fun f =>
      { f with
        position := .header 1, slotCount := 0, flags := 0#8, sequence := 0#8, statusBytes := [], symbolCount := 1
        trainFaulted := false, strayReported := false, signal := .present, silence := 0 }
    (s.framer.position = .outside →
      let a := s.afterArrival (.readable .ts)
      let u : State := { a with position := none, framer := opened s.framer, alert := { s.alert with noticeRun := 0 } }
      exec (.symbolArrival (.readable .ts)) s =
        .next (if s.inPath = true ∧ s.op.pendingAbort = .atTrain ∧ s.op.slot ≠ .idle then
            (u.operationEnded .aborted keptIncomplete).raise .opdone
          else u)) ∧
    ∃ t, exec (.symbolArrival (.readable .ts)) s = .next t ∧ t.framer = opened s.framer ∧ t.position = none ∧
      t.alert.noticeRun = 0 ∧ (t.inPath = true → s.inPath = true → t.op.pendingAbort ≠ .atTrain ∨ t.op.slot = .idle)

/-- R5, R14, R15: the three header bytes and the status bytes are taken in their places; a slot count of 0 or above 31, or a FILL, an ERR
or a mark where a byte is due, makes the train unreadable; in an unreadable train nothing counts but the byte at symbol count 4. R7, R39,
R40, R133, R187: at the last status byte the part in the path claims the first slot that holds 255 and writes its status byte there, or
raises SLOT; a HELD part obeys JOIN (R35), and a bypassed part does nothing else. -/
def Obligations.TheHeaderReadClaimsASlot : Prop :=
  (∀ (x : LineSymbol) (s : State), s.running = true → s.framer.symbolCount < 2047 →
    let a := s.afterArrival x
    let becomes := fun f : Framer => exec (.symbolArrival x) s = .next { a with framer := f }
    let unreadable : Framer := { a.framer with position := .unread }
    (∀ b, x.taken = .data b →
      (s.framer.position = .header 1 →
        (1 ≤ b.toNat ∧ b.toNat ≤ 31 → becomes { a.framer with slotCount := b.toNat, position := .header 2 }) ∧
        (b.toNat = 0 ∨ 31 < b.toNat → becomes unreadable)) ∧
      (s.framer.position = .header 2 → becomes { a.framer with flags := b, position := .header 3 }) ∧
      (s.framer.position = .header 3 → becomes { a.framer with sequence := b, position := .status 1 }) ∧
      (∀ n, s.framer.position = .status n → n < s.framer.slotCount →
        becomes { a.framer with statusBytes := s.framer.statusBytes ++ [b], position := .status (n + 1) }) ∧
      (s.framer.position = .unread →
        becomes { a.framer with sequence := if s.framer.symbolCount = 3 then b else s.framer.sequence })) ∧
    (x.taken ∈ [.fill, .err, .md, .mq, .ma, .mn] →
      (∀ n, s.framer.position = .header n ∨ s.framer.position = .status n → becomes unreadable) ∧
      (s.framer.position = .unread → becomes a.framer))) ∧
  (∀ (b : Byte) (s : State) (n : Nat), s.running = true → s.framer.position = .status n → s.framer.slotCount = n →
        s.framer.symbolCount < 2047 →
      let bytes := s.framer.statusBytes ++ [b]
      let a := s.afterArrival (.readable (.data b))
      let u : State :=
        { a with
          framer := { a.framer with statusBytes := bytes, position := .body }, alert := { s.alert with noticeRun := 0 } }
      let bit := fun (x : Bool) (k : Nat) => if x = true then 2 ^ k else 0
      let status := BitVec.ofNat 8
        (bit (!s.queue.items.isEmpty) 0 + bit (if s.op.slot = .idle then false else true) 1 + bit s.reaction.isolated 2 +
          bit s.alert.flags.link 3 + bit s.alert.flags.stale 4 + bit s.alert.flags.trip 5 + bit s.alert.alertn 6)
      (s.inPath = true →
        (∀ k, bytes[k]? = some 255#8 → (∀ j, j < k → bytes[j]? ≠ some 255#8) →
          exec (.symbolArrival (.readable (.data b))) s =
            .next { u with position := some (k + 1), delay := u.delay.set (n - (k + 1)) (.data status) }) ∧
        (255#8 ∉ bytes → exec (.symbolArrival (.readable (.data b))) s = .next (u.raise .slot))) ∧
      (s.inPath = false →
        exec (.symbolArrival (.readable (.data b))) s =
          .next (if s.link.state = .held ∧ s.framer.flags.getLsbD 2 = true then
              { u with link := { s.link with state := .acquire, cleanCount := 0, heldCount := 0 } }
            else u)))

/-- R16, R20, R22, R29, R30: a stray symbol is reported with cause 2 once per train and once per gap, faults its train, and outside a
train takes a bypassed part's clean count away or sends it back to ACQUIRE. That the stray-reported flag is set while the part is bypassed
and reports nothing is the model's reading (log 23). -/
def Obligations.AStraySymbolIsReportedOnce : Prop :=
  ∀ (x : LineSymbol) (s : State), s.lawful → s.running = true →
    let a := s.afterArrival x
    let u : State := { a with alert := { s.alert with noticeRun := 0 } }
    let reported := fun v : State => if s.framer.strayReported = true then v else v.afterFault 2
    (s.framer.position = .body → (x.taken = .err ∨ ∃ b, x.taken = .data b) → s.framer.symbolCount < 2047 →
      exec (.symbolArrival x) s =
        .next { reported u with framer := { a.framer with trainFaulted := true, strayReported := true } }) ∧
    (s.framer.position = .outside → x.taken ≠ .fill → x.taken ≠ .ts →
      exec (.symbolArrival x) s =
        .next { reported a with
          framer := { a.framer with strayReported := true }
          link :=
            match s.link.state with
            | .acquire => { s.link with cleanCount := 0 }
            | .joinWait => { s.link with state := .acquire, cleanCount := 0 }
            | _ => s.link })

/-- R17, R19, R22: a record with a bad check or an ERR is damaged at its last check byte, one with a bad length at once, one that a mark
cuts at the mark; each is reported with cause 1 and faults its train, and no block takes it. FILL, TE, TA or TS cuts a record too, and is
then taken in its own meaning, as in a body whose record is so reported. In SKIP data bytes and ERR only pass; the first other symbol is
taken as in the body. -/
def Obligations.ADamagedRecordIsReportedAndNotTaken : Prop :=
  (∀ (x : LineSymbol) (s : State) (r : RecordProgress),
      s.lawful → s.running = true → s.framer.position = .record r → s.framer.symbolCount < 2047 →
      let a := s.afterArrival x
      let u : State := { a with alert := { s.alert with noticeRun := 0 } }
      let damaged := fun p : ParsePosition =>
        exec (.symbolArrival x) s =
          .next { u.afterFault 1 with framer := { a.framer with trainFaulted := true, position := p } }
      let len := (r.bytes.getD 0 0#8).toNat
      (∀ b, x.taken = .data b → r.bytes.length = len + 5 →
        r.errSeen = true ∨ r.check ≠ r.bytes.getD (len + 4) 0#8 ++ b → damaged .body) ∧
      (x.taken = .err → r.bytes ≠ [] → r.bytes.length = len + 5 → damaged .body) ∧
      (r.bytes = [] → (x.taken = .err ∨ ∃ b, x.taken = .data b ∧ 48 < b.toNat) → damaged .skip) ∧
      (∀ k : RecordKind, x.taken = k.mark → damaged (.record { kind := k, bytes := [], check := 65535#16, errSeen := false }))) ∧
  (∀ (x : LineSymbol) (s : State) (r : RecordProgress), s.running = true → s.framer.position = .record r →
    x.taken ∈ [.fill, .te, .ta, .ts] →
    let cut : State := { s.afterFault 1 with framer := { s.framer with trainFaulted := true, position := .body } }
    exec (.symbolArrival x) s = exec (.symbolArrival x) cut) ∧
  (∀ (x : LineSymbol) (s : State), s.running = true → s.framer.position = .skip →
    ((x.taken = .err ∨ ∃ b, x.taken = .data b) → s.framer.symbolCount < 2047 →
      exec (.symbolArrival x) s = .next { s.afterArrival x with alert := { s.alert with noticeRun := 0 } }) ∧
    (x.taken ∈ [.fill, .md, .mq, .ma, .mn, .te, .ta, .ts] →
      exec (.symbolArrival x) s = exec (.symbolArrival x) { s with framer := { s.framer with position := .body } }))

/-- R19, R21, R22: the 2048th symbol of a train that does not end it itself ends it by a break. In the path the break is reported: cause
4 for a readable train, cause 3 for an unreadable one. -/
def Obligations.The2048thSymbolBreaksTheTrain : Prop :=
  ∀ (x : LineSymbol) (s : State), s.lawful → s.running = true → s.framer.position ≠ .outside →
      s.framer.symbolCount = 2047 → x.taken ∉ [.te, .ta, .ts] →
    ∃ t, exec (.trainLimitBreak x) s = .next t ∧ exec (.symbolArrival x) s = .next t ∧
      t.framer.position = .outside ∧ t.framer.symbolCount = 0 ∧ t.framer.sequence = s.framer.sequence ∧
      t.framer.strayReported = false ∧ t.position = none ∧ t.alert.noticeRun = 0 ∧
      (s.inPath = true → s.queue.items.length ≤ 29 →
        ∃ i ∈ t.queue.items, i.kind = .link ∧ i.entry = none ∧ i.train = s.framer.sequence ∧
          i.value = some (if s.framer.position = .unread then 3#16 else 4#16)) ∧
      (s.inPath = true → s.trainFlag 0 = false → t.alert.flags.link = true)

/-! ### Places in the ring -/

/-- R29: the TE of the second consecutive clean train takes a part in ACQUIRE to JOIN-WAIT; a train that is not clean, a broken one among
them, takes its count away. That JOIN_WAIT_ENTRY leaves the part unchanged where it does not come about is the model's choice (log 1). -/
def Obligations.TheSecondCleanTrainLeadsToJoinWait : Prop :=
  ∀ (s : State), s.lawful → s.running = true → s.link.state = .acquire → s.framer.position ≠ .outside →
    let a := s.afterArrival (.readable .te)
    let clean := s.framer.position = .body ∧ s.framer.trainFaulted = false
    let ended := fun l : Link =>
      { a with
        framer := { a.framer.betweenTrains with trainFaulted := s.framer.trainFaulted }, position := none
        alert := { s.alert with noticeRun := 0 }, link := l }
    (clean → s.link.cleanCount = 1 →
      exec .joinWaitEntry s = .next (ended { s.link with state := .joinWait, cleanCount := 0 }) ∧
      exec (.symbolArrival (.readable .te)) s = exec .joinWaitEntry s) ∧
    (clean → s.link.cleanCount = 0 → exec (.symbolArrival (.readable .te)) s = .next (ended { s.link with cleanCount := 1 })) ∧
    (¬ clean → ∃ t, exec (.symbolArrival (.readable .te)) s = .next t ∧ t.link = { s.link with cleanCount := 0 }) ∧
    (∀ x : LineSymbol, x.taken ∈ [.ta, .ts] ∨ (s.framer.symbolCount = 2047 ∧ x.taken ≠ .te) →
      ∃ t, exec (.symbolArrival x) s = .next t ∧ t.link = { s.link with cleanCount := 0 }) ∧
    (¬ (clean ∧ s.link.cleanCount = 1) → exec .joinWaitEntry s = .next { s with dn := [] })

/-- R30, R31: in JOIN-WAIT the TE of any train brings the part in, with 64 FILL in the Delay Line and the mode it holds, unless it drains;
a break sends it back to ACQUIRE. -/
def Obligations.APartJoinsAtATrainEnd : Prop :=
  ∀ (s : State), s.running = true → s.link.state = .joinWait → s.framer.position ≠ .outside →
    (∃ t, exec (.symbolArrival (.readable .te)) s = .next t ∧
      (s.link.draining = false → t.delay = List.replicate 64 .fill ∧ t.dn = [.readable .te] ∧
        t.link = { s.link with state := .inline, bypassClosed := false }) ∧
      (s.link.draining = true → t.delay = s.delay ∧ t.dn = [] ∧ t.link = s.link)) ∧
    (∀ x, x ∈ [Symbol.ta, .ts] → ∃ t, exec (.symbolArrival (.readable x)) s = .next t ∧
      t.link = { s.link with state := .acquire, cleanCount := 0 } ∧ t.delay = s.delay)

/-- R32: in LEAVE-WAIT the part leaves at the arrival of FILL after which no train is open, the 64 places hold FILL and no operation
runs; the FILL are dropped and the switch closes. While one of the three fails it stays. That LEAVING_THE_PATH leaves the part unchanged
where it does not come about is the model's choice (log 1). -/
def Obligations.APartLeavesInAGapOfFill : Prop :=
  ∀ (s : State) (oldest : Symbol) (rest : List Symbol), s.running = true → s.link.state = .leaveWait →
      s.link.draining = false → s.framer.position = .outside → s.delay = rest ++ [oldest] → rest.length = 63 →
    let moved : State :=
      { s with
        dn := [.readable oldest], delay := .fill :: rest, framer := { s.framer with signal := .present, silence := 0 } }
    let ready := rest = List.replicate 63 .fill ∧ s.op.slot = .idle
    (ready →
      exec .leavingThePath s =
        .next { moved with delay := [], link := { s.link with state := .held, bypassClosed := true } } ∧
      exec (.symbolArrival (.readable .fill)) s = exec .leavingThePath s) ∧
    (¬ ready → exec (.symbolArrival (.readable .fill)) s = .next moved ∧ exec .leavingThePath s = .next { s with dn := [] })

/-- R35: every train end in HELD takes 1 from a held count above 0, and at 0 the part is in ACQUIRE; a held count of 0 waits. That
HELD_COUNT_EXPIRY leaves the part unchanged where it does not come about is the model's choice (log 1). -/
def Obligations.TheHeldCountRunsOut : Prop :=
  ∀ (o : Occasion) (s : State), s.lawful → s.running = true → s.link.state = .held → s.endsTrainAt o →
    (s.link.heldCount = 1 →
      ∃ t, exec (.heldCountExpiry o) s = .next t ∧ exec (commandOf o) s = .next t ∧
        t.link.state = .acquire ∧ t.link.heldCount = 0 ∧ t.link.cleanCount = 0 ∧ t.link.mode = s.link.mode ∧
        t.table = s.table ∧ t.op = s.op ∧ t.reaction = s.reaction) ∧
    (s.link.heldCount ≠ 1 →
      (∃ t, exec (commandOf o) s = .next t ∧ t.link.state = .held ∧ t.link.heldCount = s.link.heldCount - 1) ∧
      exec (.heldCountExpiry o) s = .next { s with dn := [] })

/-- R36, R38, R137: at a TE in the path the pending mode comes into force after everything else of the end, a BYPASS only if no operation
runs then; and a CLR flag makes the clear of R134 and R135 over all entries and factors, which keeps TRIP, STALE, QFULL and ISOL where their
cause stands. The train is closed (R21), the part unplaced (R39). R21, R22: TE, TA and TS report what their end is, and a TE that ends a
readable train with no record open reports nothing. R38: every other end applies the mode too; the 2048th symbol may be the FILL at which
the part leaves (R32, log 26), and a loss of signal moves the link state on from there (R33). -/
def Obligations.ATrainEndAppliesTheModeAndTheClear : Prop :=
  ∀ (s : State), s.lawful → s.running = true → s.inPath = true → s.framer.position ≠ .outside →
    (∃ t, exec (.symbolArrival (.readable .te)) s = .next t ∧
      t.framer.position = .outside ∧ t.framer.sequence = s.framer.sequence ∧ t.framer.slotCount = 0 ∧ t.framer.flags = 0#8 ∧
      t.framer.statusBytes = [] ∧ t.framer.symbolCount = 0 ∧ t.framer.strayReported = false ∧
      t.position = none ∧ t.alert.noticeRun = 0 ∧
      t.link =
        (match s.link.pendingMode with
          | .none => s.link
          | .observe => { s.link with mode := .observe, state := .inline, heldCount := 0, pendingMode := .none }
          | .active => { s.link with mode := .active, state := .inline, heldCount := 0, pendingMode := .none }
          | .bypass h =>
            if t.op.slot = .idle then { s.link with state := .leaveWait, heldCount := h, pendingMode := .none }
            else { s.link with pendingMode := .none }) ∧
      (s.trainFlag 0 = true →
        (∀ i, (t.entry i).state = .armed → (t.entry i).live.condition = .tripped → (t.entry i).live.recovered = false) ∧
        t.alert.flags.link = false ∧ t.alert.flags.slot = false ∧ t.alert.flags.opdone = false ∧
        (t.alert.flags.trip = true → ∃ i, (t.entry i).live.condition = .tripped) ∧
        (t.alert.flags.stale = true → ∃ i, (t.entry i).live.timing = .stale) ∧
        (t.alert.flags.qfull = true → t.queue.items.length = 32) ∧
        (s.alert.flags.trip = true → (∃ i, (t.entry i).live.condition = .tripped) → t.alert.flags.trip = true) ∧
        (∀ i, (t.entry i).live.timing = .stale → s.alert.flags.stale = true ∨ (s.entry i).live.timing ≠ .stale →
          t.alert.flags.stale = true) ∧
        (s.alert.flags.qfull = true → t.queue.items.length = 32 → t.alert.flags.qfull = true)) ∧
      t.alert.flags.isol = s.alert.flags.isol ∧
      (s.trainFlag 0 = false → ∀ i, (t.entry i).state = .armed →
        (t.entry i).live.condition = (s.entry i).live.condition ∧ (t.entry i).live.run = (s.entry i).live.run ∧
          (t.entry i).live.recovered = (s.entry i).live.recovered)) ∧
    (∀ x ∈ [Symbol.te, .ta, .ts], ∃ t, exec (.symbolArrival (.readable x)) s = .next t ∧
      let causes := s.endCauses x
      let before := s.queue.items.length
      t.alert.flags.link = (!s.trainFlag 0 && (s.alert.flags.link || !causes.isEmpty)) ∧
      (before + causes.length ≤ 32 →
        t.queue.items.take before = s.queue.items ∧
        (((t.queue.items.drop before).take causes.length).map fun y => (y.kind, y.entry, y.train, y.value)) =
          (causes.map fun c => (IncidentKind.link, none, s.framer.sequence, some (BitVec.ofNat 16 c))) ∧
        ∀ y ∈ t.queue.items.drop (before + causes.length), y.kind = .stale)) ∧
    ∀ o, s.endsTrainAt o → ∃ t, exec (commandOf o) s = .next t ∧ t.position = none ∧ t.alert.noticeRun = 0 ∧
      let applied := s.linkAfterEnd
      match o with
      | .arrival x =>
        t.link = applied ∨
          (x.taken = .fill ∧ s.framer.symbolCount = 2047 ∧ applied.state = .leaveWait ∧ t.delay = [] ∧
            t.link = { applied with state := .held, bypassClosed := true })
      | .silence =>
        t.link =
          if applied.state = .leaveWait then { applied with state := .held, draining := true, drainTa := true }
          else { applied with state := .acquire, cleanCount := 0, draining := true, drainTa := true }

/-! ### What train ends count -/

/-- R93, R95, R96: at a counted train end that completes a period of an ARMED entry, trains since match returns to 0; below the miss limit
the entry is LATE with one more miss, at the limit it is STALE, raises STALE and queues its incident if the queue has room for it after
the end's reports (up to three at the 2048th symbol, one of cause 5 at a loss of signal) and the entries of lower index that go STALE; the
incident is missing only from a full queue with QFULL pending. A header CLR of the same end may release the entry's trip (R102, R137), but
keeps its timing. -/
def Obligations.APeriodRunsOutLateOrStale : Prop :=
  ∀ (i : Nat) (o : Occasion) (s : State), s.lawful → s.running = true → s.inPath = true → s.endsTrainAt o → s.trainFlag 1 = false →
    let e := s.entry i
    let released := s.trainFlag 0 = true ∧ e.live.condition = .tripped ∧ e.live.recovered = true
    let after := fun l : Live => { e with live := if released then { l with condition := .conforming, run := 0, recovered := false } else l }
    e.state = .armed → 0 < e.config.period → e.live.timing ≠ .stale → e.live.since + 1 = e.config.period →
    (e.live.miss + 1 < e.config.missLimit →
      ∃ t, exec (.periodExpiry i o) s = .next t ∧ exec (commandOf o) s = .next t ∧
        t.entry i = after { e.live with since := 0, miss := e.live.miss + 1, timing := .late } ∧
        t.reaction = s.reaction ∧ t.op.fifo = s.op.fifo ∧ t.alert.levels = s.alert.levels ∧
        ∀ j, (t.entry j).config = (s.entry j).config) ∧
    (e.live.miss + 1 = e.config.missLimit →
      ∃ t, exec (.stale i o) s = .next t ∧ exec (commandOf o) s = .next t ∧
        t.entry i = after { e.live with since := 0, miss := e.config.missLimit, timing := .stale } ∧
        t.alert.flags.stale = true ∧
        (let queued := ∃ x ∈ t.queue.items, x.kind = .stale ∧ x.entry = some i ∧ x.train = s.framer.sequence ∧ x.value = none
          let reports :=
            match o with
            | .silence => 1
            | .arrival x => if x.taken ∈ [.te, .ta, .ts] then (s.endCauses x.taken).length else 3
          let earlier := (List.range i).countP fun j => (s.entry j).goesStale
          (s.queue.items.length + reports + earlier < 32 → queued) ∧
            (queued ∨ (t.queue.items.length = 32 ∧ t.alert.flags.qfull = true))) ∧
        t.reaction = s.reaction ∧ t.op.fifo = s.op.fifo ∧ t.alert.levels = s.alert.levels ∧
        ∀ j, (t.entry j).config = (s.entry j).config)

/-- R130, R170, R171, R175: at the train end in the path, FREEZE or not, that brings the trains without match to the limit, the capture
ends TIMEOUT with its images kept, and OPDONE rises; a header CLR of the same end takes OPDONE down again (R137). -/
def Obligations.ACaptureTimesOut : Prop :=
  ∀ (o : Occasion) (s : State) (c : CaptureFields), s.lawful → s.running = true → s.inPath = true → s.endsTrainAt o →
    s.op.slot = .capture c → c.without + 1 = c.limit →
    ∃ t, exec (.captureTimeout o) s = .next t ∧ exec (commandOf o) s = .next t ∧
      t.op =
        { slot := .idle, pendingAbort := .none, fifo := s.op.fifo
          last :=
            { kind := .capture, cause := .timeout, byte1 := BitVec.ofNat 8 c.matched, byte2 := BitVec.ofNat 8 c.lost
              byte3 := BitVec.ofNat 8 c.stored } } ∧
      (t.alert.flags.opdone = true ↔ s.trainFlag 0 = false) ∧ t.reaction = s.reaction

/-- R63, R130, R170, R171, R178: at the counted train end that brings the trains counted to the limit, the trial ends DONE: its entry is
LOADED and CONFORMING with complete results, and OPDONE rises; a header CLR of the same end takes OPDONE down again (R137). -/
def Obligations.ATrialEndsDone : Prop :=
  ∀ (o : Occasion) (s : State) (r : TrialFields), s.lawful → s.running = true → s.inPath = true → s.endsTrainAt o →
    s.trainFlag 1 = false → s.op.slot = .trial r → r.counted + 1 = r.limit →
    ∃ t, exec (.trialDone o) s = .next t ∧ exec (commandOf o) s = .next t ∧
      t.op =
        { slot := .idle, pendingAbort := .none, fifo := s.op.fifo
          last :=
            { kind := .trial, cause := .done, byte1 := BitVec.ofNat 8 r.entry, byte2 := BitVec.ofNat 8 r.limit
              byte3 := BitVec.ofNat 8 r.limit } } ∧
      t.entry r.entry =
        { s.entry r.entry with
          state := .loaded
          live := { (s.entry r.entry).live with
            condition := .conforming, recovered := false, run := 0, previous := none
            trial := (s.entry r.entry).live.trial.map fun x => { x with incomplete := false } } } ∧
      t.trialStreak = 0 ∧ (t.alert.flags.opdone = true ↔ s.trainFlag 0 = false) ∧ t.reaction = s.reaction

/-! ### Notices -/

/-- R142, R143, R188, R190: the FILL after which the run stands at 12 with a notice waiting puts the notice over the newest twelve
places; one FILL fewer only lengthens the run. FILL that ends SKIP or cuts a record is taken as in the body (the statement on damaged
records). That NOTICE_PLACEMENT leaves the part unchanged where no notice is placed is the model's choice (log 1). -/
def Obligations.AWaitingNoticeIsPlacedInTwelveFill : Prop :=
  ∀ (s : State), s.running = true → s.inPath = true → s.link.draining = false → s.framer.position = .body →
      s.framer.symbolCount < 2047 →
    let a := s.afterArrival (.readable .fill)
    let newest := (s.queue.items.getLast?.map Incident.sequence).getD 0#8
    let cause : Byte :=
      match s.alert.noticeCause with
      | .trip => 0#8 | .stale => 1#8 | .link => 2#8 | .qfull => 3#8 | .slot => 4#8 | .isol => 5#8 | .opdone => 6#8
    let covered : List Byte :=
      [5#8, BitVec.ofNat 8 (s.position.getD 0), s.framer.sequence, cause, factorByte s.alert.flags s.alert.alertn,
        BitVec.ofNat 8 s.queue.items.length, newest,
        (match s.op.slot with | .idle => 0#8 | .capture _ => 1#8 | .trial _ => 2#8), if s.reaction.isolated = true then 1#8 else 0#8]
    let check := checkOf covered
    let notice : List Symbol := .mn :: (covered ++ [check.extractLsb' 8 8, check.extractLsb' 0 8]).map .data
    (s.alert.noticeWaiting = true → 11 ≤ s.alert.noticeRun →
      exec .noticePlacement s =
        .next { a with
          delay := notice.reverse ++ a.delay.drop 12
          alert := { s.alert with noticeWaiting := false, noticeRun := 0 } } ∧
      exec (.symbolArrival (.readable .fill)) s = exec .noticePlacement s) ∧
    (s.alert.noticeWaiting = false ∨ s.alert.noticeRun < 11 →
      exec (.symbolArrival (.readable .fill)) s =
        .next { a with alert := { s.alert with noticeRun := min 12 (s.alert.noticeRun + 1) } } ∧
      exec .noticePlacement s = .next { s with dn := [] })

/-! ### Data records -/

/-- R71, R173, R174: a capture takes a matching record first, in any train; in a FREEZE train, or when no working entry holds the record's
key, that is all that changes but for the blanking of isolation (R106, R117). -/
def Obligations.ACaptureTakesMatchingRecords : Prop :=
  ∀ (d : DataRecord) (s : State), s.lawful → s.readyFor (d.payload.length + 7) → d.payload.length ≤ 48 →
    let a := (s.afterRecord d.wire).afterCapture d
    let freeze := s.framer.flags.getLsbD 1 = true
    freeze ∨
      (∀ i, (s.entry i).config.source = d.source → (s.entry i).config.channel = d.channel →
        (s.entry i).state ≠ .armed ∧ (s.entry i).state ≠ .trial) →
    exec (.dataRecordCompletion d.source d.channel d.flags d.payload) s =
      .next (if ¬ freeze ∧ s.link.mode = .active ∧ s.reaction.isolated = true then
          { a with delay := overRecord (d.payload.length + 7) none a.delay }
        else a)

/-- R72 to R84, R86, R87: what the record of an ARMED entry does to its entry, the queue, the factors, isolation, a pending AT-TRIP abort
and the Substitution Store, in a train with FREEZE clear; the Delay Line is the reaction's (the statement on a tripped entry's records and
that on OBSERVE and FREEZE). The trial streak's 0 after an AT-TRIP abort of a trial is the model's choice (log 20). -/
def Obligations.ARecordIsJudgedForItsArmedEntry : Prop :=
  ∀ (d : DataRecord) (s : State) (i : Nat), s.lawful → s.readyFor (d.payload.length + 7) → d.payload.length ≤ 48 →
    s.framer.flags.getLsbD 1 = false →
    let e := s.entry i
    let value := e.config.fieldValue d.payload
    let a := (s.afterRecord d.wire).afterCapture d
    let good := e.accepts d.payload = true
    let seen : Live := { e.live with timing := .fresh, since := 0, miss := 0, previous := e.previousAfter d.payload }
    let bad : Live := { seen with nonconforming := min 65535 (e.live.nonconforming + 1) }
    let with_ := fun l : Live => ({ a with table := { a.table with entries := a.table.entries.set i { e with live := l } } } : State)
    let answers := fun t : State =>
      ∃ delay, exec (.dataRecordCompletion d.source d.channel d.flags d.payload) s = .next { t with delay := delay }
    e.state = .armed → e.config.source = d.source → e.config.channel = d.channel →
    (good → e.live.condition ≠ .tripped →
      let t := with_ { seen with condition := .conforming, run := 0, recovered := false }
      answers (if e.config.reaction = .substitute then
          { t with reaction := { t.reaction with store := t.reaction.store.set e.config.slot d.payload } }
        else t)) ∧
    (good → e.live.condition = .tripped →
      let t := with_ { seen with recovered := true }
      answers (if e.live.recovered = true then t else t.pushIncident .recover (some i) value)) ∧
    (¬ good → e.live.condition = .tripped → answers (with_ { bad with recovered := false })) ∧
    (¬ good → e.live.condition ≠ .tripped → e.live.run + 1 < e.config.deglitch →
      answers (with_ { bad with condition := .suspect, run := e.live.run + 1, recovered := false })) ∧
    (¬ good → e.live.condition ≠ .tripped → e.live.run + 1 = e.config.deglitch →
      let t := with_
        { bad with condition := .tripped, run := e.config.deglitch, recovered := false, trips := min 255 (e.live.trips + 1) }
      let u := (t.pushIncident .trip (some i) value).raise .trip
      let v :=
        if e.config.reaction = .isolate ∧ s.link.mode = .active ∧ s.reaction.isolated = false then
          ({ u with reaction := { u.reaction with isolated := true } }).raise .isol
        else u
      answers (if v.op.pendingAbort = .atTrip then (v.operationEnded .aborted keptIncomplete).raise .opdone else v))

/-- R88, R89, R90: a record for the entry in TRIAL moves its condition and previous value and its trial counts, and nothing else but a
capture's fields. -/
def Obligations.ARecordIsJudgedForItsTrialEntry : Prop :=
  ∀ (d : DataRecord) (s : State) (i : Nat) (r : TrialResults), s.lawful → s.readyFor (d.payload.length + 7) →
    d.payload.length ≤ 48 → s.framer.flags.getLsbD 1 = false →
    let e := s.entry i
    let a := s.afterRecord d.wire
    let good := e.accepts d.payload = true
    let streak := if good then 0 else min 255 (s.trialStreak + 1)
    let moved : Live := if good then
        (if e.live.condition = .tripped then { e.live with recovered := true }
        else { e.live with condition := .conforming, run := 0, recovered := false })
      else if e.live.condition = .tripped then { e.live with recovered := false }
      else if e.live.run + 1 < e.config.deglitch then
        { e.live with condition := .suspect, run := e.live.run + 1, recovered := false }
      else { e.live with condition := .tripped, run := e.config.deglitch, recovered := false }
    let results : TrialResults :=
      { r with
        seen := min 65535 (r.seen + 1)
        nonconforming := if good then r.nonconforming else min 65535 (r.nonconforming + 1)
        longestRun := max r.longestRun streak }
    let e' : Entry := { e with live := { moved with previous := e.previousAfter d.payload, trial := some results } }
    e.state = .trial → e.config.source = d.source → e.config.channel = d.channel → e.live.trial = some r →
    exec (.dataRecordCompletion d.source d.channel d.flags d.payload) s =
      .next { a with
        trialStreak := streak
        table := { a.table with entries := a.table.entries.set i e' }
        delay :=
          if s.link.mode = .active ∧ s.reaction.isolated = true then overRecord (d.payload.length + 7) none a.delay else a.delay }

/-- R106 to R117: in ACTIVE, with FREEZE clear, isolation as the judgement leaves it blanks every record; else a record of an ARMED entry
that its judgement leaves TRIPPED is reacted to if it is nonconforming or the latch is set, and every other record is left as it came. -/
def Obligations.ATrippedEntryReactsToItsRecords : Prop :=
  ∀ (d : DataRecord) (s t : State) (i : Nat), s.lawful → s.readyFor (d.payload.length + 7) → d.payload.length ≤ 48 →
    s.framer.flags.getLsbD 1 = false → s.link.mode = .active →
    let e := s.entry i
    let a := s.afterRecord d.wire
    let n := d.payload.length + 7
    e.state = .armed → e.config.source = d.source → e.config.channel = d.channel →
    exec (.dataRecordCompletion d.source d.channel d.flags d.payload) s = .next t →
    t.dn = a.dn ∧
    t.delay =
      if t.reaction.isolated = true then overRecord n none a.delay
      else if (t.entry i).live.condition = .tripped ∧ (e.accepts d.payload = false ∨ e.config.latch = true) then
        overRecord n (reactedRecord e.config.reaction (s.reaction.store.getD e.config.slot []) d) a.delay
      else a.delay

/-- The law of R122: a part in OBSERVE, bypassed or passing a FREEZE train leaves every data record as it arrived. -/
def Obligations.InObserveBypassOrFreezeNoDataRecordIsTouched : Prop :=
  ∀ (d : DataRecord) (s : State), s.lawful → d.payload.length ≤ 48 →
    (s.readyFor (d.payload.length + 7) → s.link.mode = .observe ∨ s.framer.flags.getLsbD 1 = true →
      ∃ t, exec (.dataRecordCompletion d.source d.channel d.flags d.payload) s = .next t ∧
        t.delay = d.wire.symbols.reverse ++ s.delay.take (64 - (d.payload.length + 7)) ∧
        t.dn = (s.delay.drop (64 - (d.payload.length + 7))).reverse.map .readable) ∧
    (s.inPath = false → s.link.draining = false →
      ∃ t, exec (.dataRecordCompletion d.source d.channel d.flags d.payload) s = .next t ∧
        t.dn = d.wire.symbols.map .readable ∧ t.table = s.table ∧ t.queue = s.queue ∧ t.op = s.op ∧ t.reaction = s.reaction)

/-! ### What every step keeps -/

/-- The capacities hold through every step: the table has 64 entries, the queue at most 32 incidents, numbered on by 1, the FIFO at most 512
bytes, the store 16 slots of at most 48 bytes. -/
def Obligations.EveryStepKeepsTheCapacities : Prop :=
  ∀ (s t : State), s.withinCapacity → step s = .next t → t.withinCapacity

/-- R129, R132: through every step ISOL is pending exactly while isolation is in force, and ALERTn follows the factors. -/
def Obligations.EveryStepKeepsTheFactorsInAgreement : Prop :=
  ∀ (s t : State), s.factorsAgree → step s = .next t → t.factorsAgree

/-- Through every step the switch, the Delay Line, the counts, the pending mode and the position go with the link state and the
Framer. -/
def Obligations.EveryStepKeepsThePartPlaced : Prop :=
  ∀ (s t : State), s.placed → step s = .next t → t.placed

/-- R53, R58, R59, R169: through every step the entries are lawful, the working keys and the armed substitution slots are distinct, and an
entry is in TRIAL exactly while a trial of it runs. -/
def Obligations.EveryStepKeepsTheTableLawful : Prop :=
  ∀ (s t : State), s.tableLawful → step s = .next t → t.tableLawful

/-- The part right after reset satisfies every invariant. -/
def Obligations.TheResetStateIsLawful : Prop := State.reset.lawful
end

