-- ==== Sys2Proof/Laws/State.lean ====
section
/-! SUPPORT. What each operation over State leaves unchanged: one lemma per operation, its parts simp rules. No later proof unfolds a
record update to know a field it does not touch. -/

namespace Sys2Proof.Machine

/-! ### The blocks by themselves -/

@[simp] theorem AlertUnit.settle_frame (a : AlertUnit) :
    a.settle.flags = a.flags ∧ a.settle.levels = a.levels ∧ a.settle.threshold = a.threshold ∧
      a.settle.noticeEnable = a.noticeEnable ∧ a.settle.noticeWaiting = a.noticeWaiting ∧
      a.settle.noticeCause = a.noticeCause ∧ a.settle.noticeRun = a.noticeRun ∧ a.settle.alertn = a.asserts :=
  ⟨rfl, rfl, rfl, rfl, rfl, rfl, rfl, rfl⟩

@[simp] theorem AlertUnit.rise_frame (f : Factor) (a : AlertUnit) :
    (a.rise f).flags = a.flags ∧ (a.rise f).levels = a.levels ∧ (a.rise f).threshold = a.threshold ∧
      (a.rise f).noticeEnable = a.noticeEnable ∧ (a.rise f).noticeRun = a.noticeRun ∧ (a.rise f).alertn = a.alertn := by
  unfold AlertUnit.rise; split <;> simp

@[simp] theorem AlertUnit.raise_frame (f : Factor) (a : AlertUnit) :
    (a.raise f).levels = a.levels ∧ (a.raise f).threshold = a.threshold ∧ (a.raise f).noticeEnable = a.noticeEnable ∧
      (a.raise f).noticeRun = a.noticeRun := by
  unfold AlertUnit.raise; split <;> simp

@[simp] theorem AlertUnit.clear_frame (f : Factor) (a : AlertUnit) :
    (a.clear f).levels = a.levels ∧ (a.clear f).threshold = a.threshold ∧ (a.clear f).noticeEnable = a.noticeEnable ∧
      (a.clear f).noticeRun = a.noticeRun ∧ (a.clear f).noticeWaiting = a.noticeWaiting ∧
      (a.clear f).noticeCause = a.noticeCause ∧ (a.clear f).flags = a.flags.set f false := by
  simp [AlertUnit.clear]

@[simp] theorem OperationUnit.finish_frame (r : LastResult) (o : OperationUnit) :
    (o.finish r).slot = .idle ∧ (o.finish r).pendingAbort = .none ∧ (o.finish r).last = r ∧ (o.finish r).fifo = o.fifo :=
  ⟨rfl, rfl, rfl, rfl⟩

@[simp] theorem Link.toAcquire_frame (l : Link) :
    l.toAcquire.state = .acquire ∧ l.toAcquire.cleanCount = 0 ∧ l.toAcquire.mode = l.mode ∧
      l.toAcquire.pendingMode = l.pendingMode ∧ l.toAcquire.heldCount = l.heldCount ∧
      l.toAcquire.bypassClosed = l.bypassClosed ∧ l.toAcquire.draining = l.draining ∧ l.toAcquire.drainTa = l.drainTa :=
  ⟨rfl, rfl, rfl, rfl, rfl, rfl, rfl, rfl⟩

@[simp] theorem Link.stray_frame (l : Link) :
    l.stray.mode = l.mode ∧ l.stray.pendingMode = l.pendingMode ∧ l.stray.heldCount = l.heldCount ∧
      l.stray.bypassClosed = l.bypassClosed ∧ l.stray.draining = l.draining ∧ l.stray.drainTa = l.drainTa ∧
      l.stray.state.inPath = l.state.inPath := by
  unfold Link.stray; split <;> simp_all [LinkState.inPath]

@[simp] theorem Link.applyPending_frame (idle : Bool) (l : Link) :
    (l.applyPending idle).pendingMode = .none ∧ (l.applyPending idle).state.inPath = l.state.inPath ∧
      (l.applyPending idle).cleanCount = l.cleanCount ∧ (l.applyPending idle).bypassClosed = l.bypassClosed ∧
      (l.applyPending idle).draining = l.draining ∧ (l.applyPending idle).drainTa = l.drainTa := by
  unfold Link.applyPending Link.applyMode Link.applyBypass
  repeat' split
  all_goals simp_all [LinkState.inPath]

@[simp] theorem Link.countClean_frame (clean : Bool) (l : Link) :
    (l.countClean clean).mode = l.mode ∧ (l.countClean clean).pendingMode = l.pendingMode ∧
      (l.countClean clean).heldCount = l.heldCount ∧ (l.countClean clean).bypassClosed = l.bypassClosed ∧
      (l.countClean clean).draining = l.draining ∧ (l.countClean clean).drainTa = l.drainTa := by
  unfold Link.countClean; repeat' split
  all_goals simp

@[simp] theorem Link.countHeld_frame (l : Link) :
    l.countHeld.mode = l.mode ∧ l.countHeld.pendingMode = l.pendingMode ∧ l.countHeld.bypassClosed = l.bypassClosed ∧
      l.countHeld.draining = l.draining ∧ l.countHeld.drainTa = l.drainTa := by
  unfold Link.countHeld; repeat' split
  all_goals simp

@[simp] theorem Link.loseSignal_frame (wasOpen : Bool) (l : Link) :
    (l.loseSignal wasOpen).mode = l.mode ∧ (l.loseSignal wasOpen).pendingMode = l.pendingMode ∧
      (l.loseSignal wasOpen).heldCount = l.heldCount ∧ (l.loseSignal wasOpen).bypassClosed = l.bypassClosed := by
  unfold Link.loseSignal Link.beginDrain; split <;> simp

@[simp] theorem Framer.hear_frame (f : Framer) :
    f.hear.position = f.position ∧ f.hear.slotCount = f.slotCount ∧ f.hear.flags = f.flags ∧ f.hear.sequence = f.sequence ∧
      f.hear.statusBytes = f.statusBytes ∧ f.hear.trainFaulted = f.trainFaulted ∧ f.hear.strayReported = f.strayReported ∧
      f.hear.signal = .present ∧ f.hear.silence = 0 :=
  ⟨rfl, rfl, rfl, rfl, rfl, rfl, rfl, rfl, rfl⟩

@[simp] theorem Framer.closed_frame (f : Framer) :
    f.closed.position = .outside ∧ f.closed.symbolCount = 0 ∧ f.closed.sequence = f.sequence ∧
      f.closed.trainFaulted = f.trainFaulted ∧ f.closed.signal = f.signal ∧ f.closed.silence = f.silence :=
  ⟨rfl, rfl, rfl, rfl, rfl, rfl⟩

@[simp] theorem Framer.opened_frame (f : Framer) :
    f.opened.position = .header 1 ∧ f.opened.symbolCount = 1 ∧ f.opened.sequence = 0#8 ∧ f.opened.statusBytes = [] ∧
      f.opened.trainFaulted = false ∧ f.opened.strayReported = false ∧ f.opened.signal = f.signal ∧
      f.opened.silence = f.silence :=
  ⟨rfl, rfl, rfl, rfl, rfl, rfl, rfl, rfl⟩

@[simp] theorem Framer.takeHeaderByte_frame (due : Nat) (b : Byte) (f : Framer) :
    (f.takeHeaderByte due b).statusBytes = f.statusBytes ∧ (f.takeHeaderByte due b).symbolCount = f.symbolCount ∧
      (f.takeHeaderByte due b).trainFaulted = f.trainFaulted ∧ (f.takeHeaderByte due b).strayReported = f.strayReported ∧
      (f.takeHeaderByte due b).signal = f.signal ∧ (f.takeHeaderByte due b).silence = f.silence := by
  unfold Framer.takeHeaderByte; repeat' split
  all_goals simp

/-! ### The operations over State, in the order of their definitions' dependence -/

@[simp] theorem State.quiet_frame (s : State) :
    s.quiet.powered = s.powered ∧ s.quiet.resetnHigh = s.resetnHigh ∧ s.quiet.rate = s.rate ∧ s.quiet.framer = s.framer ∧
      s.quiet.link = s.link ∧ s.quiet.position = s.position ∧ s.quiet.delay = s.delay ∧ s.quiet.table = s.table ∧
      s.quiet.trialStreak = s.trialStreak ∧ s.quiet.reaction = s.reaction ∧ s.quiet.alert = s.alert ∧
      s.quiet.queue = s.queue ∧ s.quiet.op = s.op ∧ s.quiet.pending = s.pending := by
  simp [State.quiet]

@[simp] theorem State.emit_frame (xs : List LineSymbol) (s : State) :
    (s.emit xs).powered = s.powered ∧ (s.emit xs).resetnHigh = s.resetnHigh ∧ (s.emit xs).rate = s.rate ∧
      (s.emit xs).framer = s.framer ∧ (s.emit xs).link = s.link ∧ (s.emit xs).position = s.position ∧
      (s.emit xs).delay = s.delay ∧ (s.emit xs).table = s.table ∧ (s.emit xs).trialStreak = s.trialStreak ∧
      (s.emit xs).reaction = s.reaction ∧ (s.emit xs).alert = s.alert ∧ (s.emit xs).queue = s.queue ∧ (s.emit xs).op = s.op ∧
      (s.emit xs).pending = s.pending := by
  simp [State.emit]

@[simp] theorem State.rewriteRecord_frame (r : WireRecord) (s : State) :
    (s.rewriteRecord r).powered = s.powered ∧ (s.rewriteRecord r).resetnHigh = s.resetnHigh ∧
      (s.rewriteRecord r).rate = s.rate ∧ (s.rewriteRecord r).dn = s.dn ∧ (s.rewriteRecord r).framer = s.framer ∧
      (s.rewriteRecord r).link = s.link ∧ (s.rewriteRecord r).position = s.position ∧ (s.rewriteRecord r).table = s.table ∧
      (s.rewriteRecord r).trialStreak = s.trialStreak ∧ (s.rewriteRecord r).reaction = s.reaction ∧
      (s.rewriteRecord r).alert = s.alert ∧ (s.rewriteRecord r).queue = s.queue ∧ (s.rewriteRecord r).op = s.op ∧
      (s.rewriteRecord r).pending = s.pending := by
  simp [State.rewriteRecord]

@[simp] theorem State.blankNewest_frame (n : Nat) (s : State) :
    (s.blankNewest n).powered = s.powered ∧ (s.blankNewest n).resetnHigh = s.resetnHigh ∧ (s.blankNewest n).rate = s.rate ∧
      (s.blankNewest n).dn = s.dn ∧ (s.blankNewest n).framer = s.framer ∧ (s.blankNewest n).link = s.link ∧
      (s.blankNewest n).position = s.position ∧ (s.blankNewest n).table = s.table ∧
      (s.blankNewest n).trialStreak = s.trialStreak ∧ (s.blankNewest n).reaction = s.reaction ∧
      (s.blankNewest n).alert = s.alert ∧ (s.blankNewest n).queue = s.queue ∧ (s.blankNewest n).op = s.op ∧
      (s.blankNewest n).pending = s.pending := by
  simp [State.blankNewest]

@[simp] theorem State.updateEntry_frame (i : Nat) (f : Entry → Entry) (s : State) :
    (s.updateEntry i f).powered = s.powered ∧ (s.updateEntry i f).resetnHigh = s.resetnHigh ∧
      (s.updateEntry i f).rate = s.rate ∧ (s.updateEntry i f).dn = s.dn ∧ (s.updateEntry i f).framer = s.framer ∧
      (s.updateEntry i f).link = s.link ∧ (s.updateEntry i f).position = s.position ∧ (s.updateEntry i f).delay = s.delay ∧
      (s.updateEntry i f).trialStreak = s.trialStreak ∧ (s.updateEntry i f).reaction = s.reaction ∧
      (s.updateEntry i f).alert = s.alert ∧ (s.updateEntry i f).queue = s.queue ∧ (s.updateEntry i f).op = s.op ∧
      (s.updateEntry i f).pending = s.pending ∧ (s.updateEntry i f).table.w0 = s.table.w0 ∧
      (s.updateEntry i f).table.w1 = s.table.w1 := by
  simp [State.updateEntry]

@[simp] theorem State.fillSlot_frame (i : Nat) (c : List Byte) (s : State) :
    (s.fillSlot i c).powered = s.powered ∧ (s.fillSlot i c).resetnHigh = s.resetnHigh ∧ (s.fillSlot i c).rate = s.rate ∧
      (s.fillSlot i c).dn = s.dn ∧ (s.fillSlot i c).framer = s.framer ∧ (s.fillSlot i c).link = s.link ∧
      (s.fillSlot i c).position = s.position ∧ (s.fillSlot i c).delay = s.delay ∧ (s.fillSlot i c).table = s.table ∧
      (s.fillSlot i c).trialStreak = s.trialStreak ∧ (s.fillSlot i c).alert = s.alert ∧ (s.fillSlot i c).queue = s.queue ∧
      (s.fillSlot i c).op = s.op ∧ (s.fillSlot i c).pending = s.pending ∧
      (s.fillSlot i c).reaction.isolated = s.reaction.isolated := by
  simp [State.fillSlot]

@[simp] theorem State.raise_frame (f : Factor) (s : State) :
    (s.raise f).powered = s.powered ∧ (s.raise f).resetnHigh = s.resetnHigh ∧ (s.raise f).rate = s.rate ∧
      (s.raise f).dn = s.dn ∧ (s.raise f).framer = s.framer ∧ (s.raise f).link = s.link ∧ (s.raise f).position = s.position ∧
      (s.raise f).delay = s.delay ∧ (s.raise f).table = s.table ∧ (s.raise f).trialStreak = s.trialStreak ∧
      (s.raise f).reaction = s.reaction ∧ (s.raise f).queue = s.queue ∧ (s.raise f).op = s.op ∧
      (s.raise f).pending = s.pending ∧ (s.raise f).alert.levels = s.alert.levels ∧
      (s.raise f).alert.threshold = s.alert.threshold ∧ (s.raise f).alert.noticeEnable = s.alert.noticeEnable ∧
      (s.raise f).alert.noticeRun = s.alert.noticeRun := by
  simp [State.raise]

@[simp] theorem State.clearFactors_frame (mask : PerFactor Bool) (s : State) :
    (s.clearFactors mask).powered = s.powered ∧ (s.clearFactors mask).resetnHigh = s.resetnHigh ∧
      (s.clearFactors mask).rate = s.rate ∧ (s.clearFactors mask).dn = s.dn ∧ (s.clearFactors mask).framer = s.framer ∧
      (s.clearFactors mask).link = s.link ∧ (s.clearFactors mask).position = s.position ∧
      (s.clearFactors mask).delay = s.delay ∧ (s.clearFactors mask).table = s.table ∧
      (s.clearFactors mask).trialStreak = s.trialStreak ∧ (s.clearFactors mask).reaction = s.reaction ∧
      (s.clearFactors mask).queue = s.queue ∧ (s.clearFactors mask).op = s.op ∧ (s.clearFactors mask).pending = s.pending ∧
      (s.clearFactors mask).alert.levels = s.alert.levels ∧ (s.clearFactors mask).alert.threshold = s.alert.threshold ∧
      (s.clearFactors mask).alert.noticeEnable = s.alert.noticeEnable ∧
      (s.clearFactors mask).alert.noticeWaiting = s.alert.noticeWaiting ∧
      (s.clearFactors mask).alert.noticeCause = s.alert.noticeCause ∧
      (s.clearFactors mask).alert.noticeRun = s.alert.noticeRun := by
  simp [State.clearFactors]

@[simp] theorem State.join_frame (s : State) :
    s.join.powered = s.powered ∧ s.join.resetnHigh = s.resetnHigh ∧ s.join.rate = s.rate ∧ s.join.dn = s.dn ∧
      s.join.framer = s.framer ∧ s.join.position = s.position ∧ s.join.table = s.table ∧ s.join.trialStreak = s.trialStreak ∧
      s.join.reaction = s.reaction ∧ s.join.alert = s.alert ∧ s.join.queue = s.queue ∧ s.join.op = s.op ∧
      s.join.pending = s.pending ∧ s.join.link.cleanCount = s.link.cleanCount ∧ s.join.link.mode = s.link.mode ∧
      s.join.link.pendingMode = s.link.pendingMode ∧ s.join.link.heldCount = s.link.heldCount ∧
      s.join.link.draining = s.link.draining ∧ s.join.link.drainTa = s.link.drainTa := by
  simp [State.join]

@[simp] theorem State.applyPendingMode_frame (s : State) :
    s.applyPendingMode.powered = s.powered ∧ s.applyPendingMode.resetnHigh = s.resetnHigh ∧
      s.applyPendingMode.rate = s.rate ∧ s.applyPendingMode.dn = s.dn ∧ s.applyPendingMode.framer = s.framer ∧
      s.applyPendingMode.position = s.position ∧ s.applyPendingMode.delay = s.delay ∧ s.applyPendingMode.table = s.table ∧
      s.applyPendingMode.trialStreak = s.trialStreak ∧ s.applyPendingMode.reaction = s.reaction ∧
      s.applyPendingMode.alert = s.alert ∧ s.applyPendingMode.queue = s.queue ∧ s.applyPendingMode.op = s.op ∧
      s.applyPendingMode.pending = s.pending ∧ s.applyPendingMode.link.state.inPath = s.link.state.inPath ∧
      s.applyPendingMode.link.cleanCount = s.link.cleanCount ∧ s.applyPendingMode.link.bypassClosed = s.link.bypassClosed ∧
      s.applyPendingMode.link.draining = s.link.draining ∧ s.applyPendingMode.link.drainTa = s.link.drainTa := by
  simp [State.applyPendingMode]

@[simp] theorem State.clearTrainMarks_frame (s : State) :
    s.clearTrainMarks.powered = s.powered ∧ s.clearTrainMarks.resetnHigh = s.resetnHigh ∧ s.clearTrainMarks.rate = s.rate ∧
      s.clearTrainMarks.dn = s.dn ∧ s.clearTrainMarks.framer = s.framer ∧ s.clearTrainMarks.link = s.link ∧
      s.clearTrainMarks.delay = s.delay ∧ s.clearTrainMarks.table = s.table ∧ s.clearTrainMarks.trialStreak = s.trialStreak ∧
      s.clearTrainMarks.reaction = s.reaction ∧ s.clearTrainMarks.queue = s.queue ∧ s.clearTrainMarks.op = s.op ∧
      s.clearTrainMarks.pending = s.pending ∧ s.clearTrainMarks.alert.flags = s.alert.flags ∧
      s.clearTrainMarks.alert.levels = s.alert.levels ∧ s.clearTrainMarks.alert.threshold = s.alert.threshold ∧
      s.clearTrainMarks.alert.noticeEnable = s.alert.noticeEnable ∧
      s.clearTrainMarks.alert.noticeWaiting = s.alert.noticeWaiting ∧
      s.clearTrainMarks.alert.noticeCause = s.alert.noticeCause ∧ s.clearTrainMarks.alert.alertn = s.alert.alertn := by
  simp [State.clearTrainMarks]

@[simp] theorem State.takeJoinFlag_frame (s : State) :
    s.takeJoinFlag.powered = s.powered ∧ s.takeJoinFlag.resetnHigh = s.resetnHigh ∧ s.takeJoinFlag.rate = s.rate ∧
      s.takeJoinFlag.dn = s.dn ∧ s.takeJoinFlag.framer = s.framer ∧ s.takeJoinFlag.position = s.position ∧
      s.takeJoinFlag.delay = s.delay ∧ s.takeJoinFlag.table = s.table ∧ s.takeJoinFlag.trialStreak = s.trialStreak ∧
      s.takeJoinFlag.reaction = s.reaction ∧ s.takeJoinFlag.alert = s.alert ∧ s.takeJoinFlag.queue = s.queue ∧
      s.takeJoinFlag.op = s.op ∧ s.takeJoinFlag.pending = s.pending ∧ s.takeJoinFlag.link.mode = s.link.mode ∧
      s.takeJoinFlag.link.pendingMode = s.link.pendingMode ∧ s.takeJoinFlag.link.bypassClosed = s.link.bypassClosed ∧
      s.takeJoinFlag.link.draining = s.link.draining ∧ s.takeJoinFlag.link.drainTa = s.link.drainTa := by
  unfold State.takeJoinFlag; split <;> simp

@[simp] theorem State.leaveIfDue_frame (s : State) :
    s.leaveIfDue.powered = s.powered ∧ s.leaveIfDue.resetnHigh = s.resetnHigh ∧ s.leaveIfDue.rate = s.rate ∧
      s.leaveIfDue.dn = s.dn ∧ s.leaveIfDue.framer = s.framer ∧ s.leaveIfDue.position = s.position ∧
      s.leaveIfDue.table = s.table ∧ s.leaveIfDue.trialStreak = s.trialStreak ∧ s.leaveIfDue.reaction = s.reaction ∧
      s.leaveIfDue.alert = s.alert ∧ s.leaveIfDue.queue = s.queue ∧ s.leaveIfDue.op = s.op ∧
      s.leaveIfDue.pending = s.pending ∧ s.leaveIfDue.link.cleanCount = s.link.cleanCount ∧
      s.leaveIfDue.link.mode = s.link.mode ∧ s.leaveIfDue.link.pendingMode = s.link.pendingMode ∧
      s.leaveIfDue.link.heldCount = s.link.heldCount ∧ s.leaveIfDue.link.draining = s.link.draining ∧
      s.leaveIfDue.link.drainTa = s.link.drainTa := by
  unfold State.leaveIfDue; split <;> simp

@[simp] theorem State.drainOver_frame (s : State) :
    s.drainOver.powered = s.powered ∧ s.drainOver.resetnHigh = s.resetnHigh ∧ s.drainOver.rate = s.rate ∧
      s.drainOver.dn = s.dn ∧ s.drainOver.framer = s.framer ∧ s.drainOver.position = s.position ∧
      s.drainOver.table = s.table ∧ s.drainOver.trialStreak = s.trialStreak ∧ s.drainOver.reaction = s.reaction ∧
      s.drainOver.alert = s.alert ∧ s.drainOver.queue = s.queue ∧ s.drainOver.op = s.op ∧ s.drainOver.pending = s.pending ∧
      s.drainOver.link.state = s.link.state ∧ s.drainOver.link.cleanCount = s.link.cleanCount ∧
      s.drainOver.link.mode = s.link.mode ∧ s.drainOver.link.pendingMode = s.link.pendingMode ∧
      s.drainOver.link.heldCount = s.link.heldCount := by
  simp [State.drainOver]

@[simp] theorem State.emptyFifo_frame (s : State) :
    s.emptyFifo.powered = s.powered ∧ s.emptyFifo.resetnHigh = s.resetnHigh ∧ s.emptyFifo.rate = s.rate ∧
      s.emptyFifo.dn = s.dn ∧ s.emptyFifo.framer = s.framer ∧ s.emptyFifo.link = s.link ∧ s.emptyFifo.position = s.position ∧
      s.emptyFifo.delay = s.delay ∧ s.emptyFifo.table = s.table ∧ s.emptyFifo.trialStreak = s.trialStreak ∧
      s.emptyFifo.reaction = s.reaction ∧ s.emptyFifo.alert = s.alert ∧ s.emptyFifo.queue = s.queue ∧
      s.emptyFifo.pending = s.pending ∧ s.emptyFifo.op.slot = s.op.slot ∧ s.emptyFifo.op.pendingAbort = s.op.pendingAbort ∧
      s.emptyFifo.op.last = s.op.last := by
  simp [State.emptyFifo]

@[simp] theorem State.restartAlerts_frame (s : State) :
    s.restartAlerts.powered = s.powered ∧ s.restartAlerts.resetnHigh = s.resetnHigh ∧ s.restartAlerts.rate = s.rate ∧
      s.restartAlerts.dn = s.dn ∧ s.restartAlerts.framer = s.framer ∧ s.restartAlerts.link = s.link ∧
      s.restartAlerts.position = s.position ∧ s.restartAlerts.delay = s.delay ∧ s.restartAlerts.table = s.table ∧
      s.restartAlerts.trialStreak = s.trialStreak ∧ s.restartAlerts.reaction = s.reaction ∧ s.restartAlerts.op = s.op ∧
      s.restartAlerts.pending = s.pending ∧ s.restartAlerts.alert.levels = s.alert.levels ∧
      s.restartAlerts.alert.threshold = s.alert.threshold ∧ s.restartAlerts.alert.noticeEnable = s.alert.noticeEnable ∧
      s.restartAlerts.alert.noticeCause = s.alert.noticeCause ∧ s.restartAlerts.alert.noticeRun = s.alert.noticeRun ∧
      s.restartAlerts.queue.counter = s.queue.counter := by
  simp [State.restartAlerts]

@[simp] theorem State.resetBlocks_frame (s : State) :
    s.resetBlocks.powered = s.powered ∧ s.resetBlocks.resetnHigh = s.resetnHigh ∧ s.resetBlocks.rate = s.rate ∧
      s.resetBlocks.dn = s.dn ∧ s.resetBlocks.pending = s.pending := by
  simp [State.resetBlocks]

@[simp] theorem State.storeAbort_frame (p : PendingAbort) (s : State) :
    (s.storeAbort p).powered = s.powered ∧ (s.storeAbort p).resetnHigh = s.resetnHigh ∧ (s.storeAbort p).rate = s.rate ∧
      (s.storeAbort p).dn = s.dn ∧ (s.storeAbort p).framer = s.framer ∧ (s.storeAbort p).link = s.link ∧
      (s.storeAbort p).position = s.position ∧ (s.storeAbort p).delay = s.delay ∧ (s.storeAbort p).table = s.table ∧
      (s.storeAbort p).trialStreak = s.trialStreak ∧ (s.storeAbort p).reaction = s.reaction ∧
      (s.storeAbort p).alert = s.alert ∧ (s.storeAbort p).queue = s.queue ∧ (s.storeAbort p).pending = s.pending ∧
      (s.storeAbort p).op.slot = s.op.slot ∧ (s.storeAbort p).op.last = s.op.last ∧
      (s.storeAbort p).op.fifo = s.op.fifo := by
  unfold State.storeAbort; split <;> simp

@[simp] theorem State.setPosition_frame (p : ParsePosition) (s : State) :
    (s.setPosition p).powered = s.powered ∧ (s.setPosition p).resetnHigh = s.resetnHigh ∧ (s.setPosition p).rate = s.rate ∧
      (s.setPosition p).dn = s.dn ∧ (s.setPosition p).link = s.link ∧ (s.setPosition p).position = s.position ∧
      (s.setPosition p).delay = s.delay ∧ (s.setPosition p).table = s.table ∧ (s.setPosition p).trialStreak = s.trialStreak ∧
      (s.setPosition p).reaction = s.reaction ∧ (s.setPosition p).alert = s.alert ∧ (s.setPosition p).queue = s.queue ∧
      (s.setPosition p).op = s.op ∧ (s.setPosition p).pending = s.pending ∧
      (s.setPosition p).framer.slotCount = s.framer.slotCount ∧ (s.setPosition p).framer.flags = s.framer.flags ∧
      (s.setPosition p).framer.sequence = s.framer.sequence ∧ (s.setPosition p).framer.statusBytes = s.framer.statusBytes ∧
      (s.setPosition p).framer.symbolCount = s.framer.symbolCount ∧
      (s.setPosition p).framer.trainFaulted = s.framer.trainFaulted ∧
      (s.setPosition p).framer.strayReported = s.framer.strayReported ∧ (s.setPosition p).framer.signal = s.framer.signal ∧
      (s.setPosition p).framer.silence = s.framer.silence := by
  simp [State.setPosition]

@[simp] theorem State.markFaulted_frame (s : State) :
    s.markFaulted.powered = s.powered ∧ s.markFaulted.resetnHigh = s.resetnHigh ∧ s.markFaulted.rate = s.rate ∧
      s.markFaulted.dn = s.dn ∧ s.markFaulted.link = s.link ∧ s.markFaulted.position = s.position ∧
      s.markFaulted.delay = s.delay ∧ s.markFaulted.table = s.table ∧ s.markFaulted.trialStreak = s.trialStreak ∧
      s.markFaulted.reaction = s.reaction ∧ s.markFaulted.alert = s.alert ∧ s.markFaulted.queue = s.queue ∧
      s.markFaulted.op = s.op ∧ s.markFaulted.pending = s.pending ∧ s.markFaulted.framer.position = s.framer.position ∧
      s.markFaulted.framer.slotCount = s.framer.slotCount ∧ s.markFaulted.framer.flags = s.framer.flags ∧
      s.markFaulted.framer.sequence = s.framer.sequence ∧ s.markFaulted.framer.statusBytes = s.framer.statusBytes ∧
      s.markFaulted.framer.symbolCount = s.framer.symbolCount ∧ s.markFaulted.framer.strayReported = s.framer.strayReported ∧
      s.markFaulted.framer.signal = s.framer.signal ∧ s.markFaulted.framer.silence = s.framer.silence := by
  simp [State.markFaulted]

@[simp] theorem State.breakRun_frame (s : State) :
    s.breakRun.powered = s.powered ∧ s.breakRun.resetnHigh = s.resetnHigh ∧ s.breakRun.rate = s.rate ∧ s.breakRun.dn = s.dn ∧
      s.breakRun.framer = s.framer ∧ s.breakRun.link = s.link ∧ s.breakRun.position = s.position ∧
      s.breakRun.delay = s.delay ∧ s.breakRun.table = s.table ∧ s.breakRun.trialStreak = s.trialStreak ∧
      s.breakRun.reaction = s.reaction ∧ s.breakRun.queue = s.queue ∧ s.breakRun.op = s.op ∧ s.breakRun.pending = s.pending ∧
      s.breakRun.alert.flags = s.alert.flags ∧ s.breakRun.alert.levels = s.alert.levels ∧
      s.breakRun.alert.threshold = s.alert.threshold ∧ s.breakRun.alert.noticeEnable = s.alert.noticeEnable ∧
      s.breakRun.alert.noticeWaiting = s.alert.noticeWaiting ∧ s.breakRun.alert.noticeCause = s.alert.noticeCause ∧
      s.breakRun.alert.alertn = s.alert.alertn := by
  simp [State.breakRun]

@[simp] theorem State.extendRun_frame (s : State) :
    s.extendRun.powered = s.powered ∧ s.extendRun.resetnHigh = s.resetnHigh ∧ s.extendRun.rate = s.rate ∧
      s.extendRun.dn = s.dn ∧ s.extendRun.framer = s.framer ∧ s.extendRun.link = s.link ∧ s.extendRun.position = s.position ∧
      s.extendRun.delay = s.delay ∧ s.extendRun.table = s.table ∧ s.extendRun.trialStreak = s.trialStreak ∧
      s.extendRun.reaction = s.reaction ∧ s.extendRun.queue = s.queue ∧ s.extendRun.op = s.op ∧
      s.extendRun.pending = s.pending ∧ s.extendRun.alert.flags = s.alert.flags ∧ s.extendRun.alert.levels = s.alert.levels ∧
      s.extendRun.alert.threshold = s.alert.threshold ∧ s.extendRun.alert.noticeEnable = s.alert.noticeEnable ∧
      s.extendRun.alert.noticeWaiting = s.alert.noticeWaiting ∧ s.extendRun.alert.noticeCause = s.alert.noticeCause ∧
      s.extendRun.alert.alertn = s.alert.alertn := by
  unfold State.extendRun; split <;> simp

@[simp] theorem State.pushIncident_frame (k : IncidentKind) (e : Option Nat) (v : Option Word) (s : State) :
    (s.pushIncident k e v).powered = s.powered ∧ (s.pushIncident k e v).resetnHigh = s.resetnHigh ∧
      (s.pushIncident k e v).rate = s.rate ∧ (s.pushIncident k e v).dn = s.dn ∧ (s.pushIncident k e v).framer = s.framer ∧
      (s.pushIncident k e v).link = s.link ∧ (s.pushIncident k e v).position = s.position ∧
      (s.pushIncident k e v).delay = s.delay ∧ (s.pushIncident k e v).table = s.table ∧
      (s.pushIncident k e v).trialStreak = s.trialStreak ∧ (s.pushIncident k e v).reaction = s.reaction ∧
      (s.pushIncident k e v).op = s.op ∧ (s.pushIncident k e v).pending = s.pending ∧
      (s.pushIncident k e v).alert.levels = s.alert.levels ∧ (s.pushIncident k e v).alert.threshold = s.alert.threshold ∧
      (s.pushIncident k e v).alert.noticeEnable = s.alert.noticeEnable ∧
      (s.pushIncident k e v).alert.noticeRun = s.alert.noticeRun := by
  unfold State.pushIncident; split <;> simp

@[simp] theorem State.enterIsolation_frame (s : State) :
    s.enterIsolation.powered = s.powered ∧ s.enterIsolation.resetnHigh = s.resetnHigh ∧ s.enterIsolation.rate = s.rate ∧
      s.enterIsolation.dn = s.dn ∧ s.enterIsolation.framer = s.framer ∧ s.enterIsolation.link = s.link ∧
      s.enterIsolation.position = s.position ∧ s.enterIsolation.delay = s.delay ∧ s.enterIsolation.table = s.table ∧
      s.enterIsolation.trialStreak = s.trialStreak ∧ s.enterIsolation.queue = s.queue ∧ s.enterIsolation.op = s.op ∧
      s.enterIsolation.pending = s.pending ∧ s.enterIsolation.reaction.store = s.reaction.store ∧
      s.enterIsolation.alert.levels = s.alert.levels ∧ s.enterIsolation.alert.threshold = s.alert.threshold ∧
      s.enterIsolation.alert.noticeEnable = s.alert.noticeEnable ∧ s.enterIsolation.alert.noticeRun = s.alert.noticeRun := by
  simp [State.enterIsolation]

@[simp] theorem State.clearEntries_frame (scope : ClearScope) (s : State) :
    (s.clearEntries scope).powered = s.powered ∧ (s.clearEntries scope).resetnHigh = s.resetnHigh ∧
      (s.clearEntries scope).rate = s.rate ∧ (s.clearEntries scope).dn = s.dn ∧ (s.clearEntries scope).framer = s.framer ∧
      (s.clearEntries scope).link = s.link ∧ (s.clearEntries scope).position = s.position ∧
      (s.clearEntries scope).delay = s.delay ∧ (s.clearEntries scope).trialStreak = s.trialStreak ∧
      (s.clearEntries scope).reaction = s.reaction ∧ (s.clearEntries scope).alert = s.alert ∧
      (s.clearEntries scope).queue = s.queue ∧ (s.clearEntries scope).op = s.op ∧
      (s.clearEntries scope).pending = s.pending ∧ (s.clearEntries scope).table.w0 = s.table.w0 ∧
      (s.clearEntries scope).table.w1 = s.table.w1 := by
  unfold State.clearEntries; split <;> simp

@[simp] theorem State.closeOperation_frame (c : EndCause) (h : TrialLeave) (s : State) :
    (s.closeOperation c h).powered = s.powered ∧ (s.closeOperation c h).resetnHigh = s.resetnHigh ∧
      (s.closeOperation c h).rate = s.rate ∧ (s.closeOperation c h).dn = s.dn ∧ (s.closeOperation c h).framer = s.framer ∧
      (s.closeOperation c h).link = s.link ∧ (s.closeOperation c h).position = s.position ∧
      (s.closeOperation c h).delay = s.delay ∧ (s.closeOperation c h).reaction = s.reaction ∧
      (s.closeOperation c h).alert = s.alert ∧ (s.closeOperation c h).queue = s.queue ∧
      (s.closeOperation c h).pending = s.pending ∧ (s.closeOperation c h).table.w0 = s.table.w0 ∧
      (s.closeOperation c h).table.w1 = s.table.w1 ∧ (s.closeOperation c h).op.fifo = s.op.fifo := by
  unfold State.closeOperation; split <;> simp

@[simp] theorem State.judgeTrial_frame (i : Nat) (d : DataRecord) (s : State) :
    (s.judgeTrial i d).powered = s.powered ∧ (s.judgeTrial i d).resetnHigh = s.resetnHigh ∧
      (s.judgeTrial i d).rate = s.rate ∧ (s.judgeTrial i d).dn = s.dn ∧ (s.judgeTrial i d).framer = s.framer ∧
      (s.judgeTrial i d).link = s.link ∧ (s.judgeTrial i d).position = s.position ∧ (s.judgeTrial i d).delay = s.delay ∧
      (s.judgeTrial i d).reaction = s.reaction ∧ (s.judgeTrial i d).alert = s.alert ∧ (s.judgeTrial i d).queue = s.queue ∧
      (s.judgeTrial i d).op = s.op ∧ (s.judgeTrial i d).pending = s.pending ∧ (s.judgeTrial i d).table.w0 = s.table.w0 ∧
      (s.judgeTrial i d).table.w1 = s.table.w1 := by
  simp [State.judgeTrial]

@[simp] theorem State.carryOut_frame (f : Fate) (d : DataRecord) (s : State) :
    (s.carryOut f d).powered = s.powered ∧ (s.carryOut f d).resetnHigh = s.resetnHigh ∧ (s.carryOut f d).rate = s.rate ∧
      (s.carryOut f d).dn = s.dn ∧ (s.carryOut f d).framer = s.framer ∧ (s.carryOut f d).link = s.link ∧
      (s.carryOut f d).position = s.position ∧ (s.carryOut f d).table = s.table ∧
      (s.carryOut f d).trialStreak = s.trialStreak ∧ (s.carryOut f d).reaction = s.reaction ∧
      (s.carryOut f d).alert = s.alert ∧ (s.carryOut f d).queue = s.queue ∧ (s.carryOut f d).op = s.op ∧
      (s.carryOut f d).pending = s.pending := by
  unfold State.carryOut; split <;> simp

@[simp] theorem State.joinWaitEnd_frame (b : Bool) (s : State) :
    (s.joinWaitEnd b).powered = s.powered ∧ (s.joinWaitEnd b).resetnHigh = s.resetnHigh ∧ (s.joinWaitEnd b).rate = s.rate ∧
      (s.joinWaitEnd b).dn = s.dn ∧ (s.joinWaitEnd b).framer = s.framer ∧ (s.joinWaitEnd b).position = s.position ∧
      (s.joinWaitEnd b).table = s.table ∧ (s.joinWaitEnd b).trialStreak = s.trialStreak ∧
      (s.joinWaitEnd b).reaction = s.reaction ∧ (s.joinWaitEnd b).alert = s.alert ∧ (s.joinWaitEnd b).queue = s.queue ∧
      (s.joinWaitEnd b).op = s.op ∧ (s.joinWaitEnd b).pending = s.pending ∧ (s.joinWaitEnd b).link.mode = s.link.mode ∧
      (s.joinWaitEnd b).link.pendingMode = s.link.pendingMode ∧ (s.joinWaitEnd b).link.heldCount = s.link.heldCount ∧
      (s.joinWaitEnd b).link.draining = s.link.draining ∧ (s.joinWaitEnd b).link.drainTa = s.link.drainTa := by
  unfold State.joinWaitEnd
  repeat' split
  all_goals simp

@[simp] theorem State.claimSlot_frame (s : State) :
    s.claimSlot.powered = s.powered ∧ s.claimSlot.resetnHigh = s.resetnHigh ∧ s.claimSlot.rate = s.rate ∧
      s.claimSlot.dn = s.dn ∧ s.claimSlot.framer = s.framer ∧ s.claimSlot.link = s.link ∧ s.claimSlot.table = s.table ∧
      s.claimSlot.trialStreak = s.trialStreak ∧ s.claimSlot.reaction = s.reaction ∧ s.claimSlot.queue = s.queue ∧
      s.claimSlot.op = s.op ∧ s.claimSlot.pending = s.pending ∧ s.claimSlot.alert.levels = s.alert.levels ∧
      s.claimSlot.alert.threshold = s.alert.threshold ∧ s.claimSlot.alert.noticeEnable = s.alert.noticeEnable ∧
      s.claimSlot.alert.noticeRun = s.alert.noticeRun := by
  unfold State.claimSlot; split <;> simp

@[simp] theorem State.finishDrain_frame (s : State) :
    s.finishDrain.powered = s.powered ∧ s.finishDrain.resetnHigh = s.resetnHigh ∧ s.finishDrain.rate = s.rate ∧
      s.finishDrain.framer = s.framer ∧ s.finishDrain.position = s.position ∧ s.finishDrain.table = s.table ∧
      s.finishDrain.trialStreak = s.trialStreak ∧ s.finishDrain.reaction = s.reaction ∧ s.finishDrain.alert = s.alert ∧
      s.finishDrain.queue = s.queue ∧ s.finishDrain.op = s.op ∧ s.finishDrain.pending = s.pending ∧
      s.finishDrain.link.state = s.link.state ∧ s.finishDrain.link.cleanCount = s.link.cleanCount ∧
      s.finishDrain.link.mode = s.link.mode ∧ s.finishDrain.link.pendingMode = s.link.pendingMode ∧
      s.finishDrain.link.heldCount = s.link.heldCount := by
  simp [State.finishDrain]

@[simp] theorem State.placeNotice_frame (s : State) :
    s.placeNotice.powered = s.powered ∧ s.placeNotice.resetnHigh = s.resetnHigh ∧ s.placeNotice.rate = s.rate ∧
      s.placeNotice.dn = s.dn ∧ s.placeNotice.framer = s.framer ∧ s.placeNotice.link = s.link ∧
      s.placeNotice.position = s.position ∧ s.placeNotice.table = s.table ∧ s.placeNotice.trialStreak = s.trialStreak ∧
      s.placeNotice.reaction = s.reaction ∧ s.placeNotice.queue = s.queue ∧ s.placeNotice.op = s.op ∧
      s.placeNotice.pending = s.pending ∧ s.placeNotice.alert.flags = s.alert.flags ∧
      s.placeNotice.alert.levels = s.alert.levels ∧ s.placeNotice.alert.threshold = s.alert.threshold ∧
      s.placeNotice.alert.noticeEnable = s.alert.noticeEnable ∧ s.placeNotice.alert.noticeCause = s.alert.noticeCause ∧
      s.placeNotice.alert.alertn = s.alert.alertn := by
  unfold State.placeNotice; split <;> simp

@[simp] theorem State.openRecord_frame (k : RecordKind) (s : State) :
    (s.openRecord k).powered = s.powered ∧ (s.openRecord k).resetnHigh = s.resetnHigh ∧ (s.openRecord k).rate = s.rate ∧
      (s.openRecord k).dn = s.dn ∧ (s.openRecord k).link = s.link ∧ (s.openRecord k).position = s.position ∧
      (s.openRecord k).delay = s.delay ∧ (s.openRecord k).table = s.table ∧ (s.openRecord k).trialStreak = s.trialStreak ∧
      (s.openRecord k).reaction = s.reaction ∧ (s.openRecord k).queue = s.queue ∧ (s.openRecord k).op = s.op ∧
      (s.openRecord k).pending = s.pending ∧ (s.openRecord k).framer.slotCount = s.framer.slotCount ∧
      (s.openRecord k).framer.flags = s.framer.flags ∧ (s.openRecord k).framer.sequence = s.framer.sequence ∧
      (s.openRecord k).framer.statusBytes = s.framer.statusBytes ∧
      (s.openRecord k).framer.symbolCount = s.framer.symbolCount ∧
      (s.openRecord k).framer.trainFaulted = s.framer.trainFaulted ∧
      (s.openRecord k).framer.strayReported = s.framer.strayReported ∧ (s.openRecord k).framer.signal = s.framer.signal ∧
      (s.openRecord k).framer.silence = s.framer.silence ∧ (s.openRecord k).alert.flags = s.alert.flags ∧
      (s.openRecord k).alert.levels = s.alert.levels ∧ (s.openRecord k).alert.threshold = s.alert.threshold ∧
      (s.openRecord k).alert.noticeEnable = s.alert.noticeEnable ∧
      (s.openRecord k).alert.noticeWaiting = s.alert.noticeWaiting ∧
      (s.openRecord k).alert.noticeCause = s.alert.noticeCause ∧ (s.openRecord k).alert.alertn = s.alert.alertn := by
  simp [State.openRecord]

@[simp] theorem State.moveLine_frame (x : LineSymbol) (s : State) :
    (s.moveLine x).powered = s.powered ∧ (s.moveLine x).resetnHigh = s.resetnHigh ∧ (s.moveLine x).rate = s.rate ∧
      (s.moveLine x).framer = s.framer ∧ (s.moveLine x).link = s.link ∧ (s.moveLine x).position = s.position ∧
      (s.moveLine x).table = s.table ∧ (s.moveLine x).trialStreak = s.trialStreak ∧ (s.moveLine x).reaction = s.reaction ∧
      (s.moveLine x).alert = s.alert ∧ (s.moveLine x).queue = s.queue ∧ (s.moveLine x).op = s.op ∧
      (s.moveLine x).pending = s.pending := by
  unfold State.moveLine
  repeat' split
  all_goals simp

@[simp] theorem State.report_frame (c : Nat) (s : State) :
    (s.report c).powered = s.powered ∧ (s.report c).resetnHigh = s.resetnHigh ∧ (s.report c).rate = s.rate ∧
      (s.report c).dn = s.dn ∧ (s.report c).framer = s.framer ∧ (s.report c).link = s.link ∧
      (s.report c).position = s.position ∧ (s.report c).delay = s.delay ∧ (s.report c).table = s.table ∧
      (s.report c).trialStreak = s.trialStreak ∧ (s.report c).reaction = s.reaction ∧ (s.report c).op = s.op ∧
      (s.report c).pending = s.pending ∧ (s.report c).alert.levels = s.alert.levels ∧
      (s.report c).alert.threshold = s.alert.threshold ∧ (s.report c).alert.noticeEnable = s.alert.noticeEnable ∧
      (s.report c).alert.noticeRun = s.alert.noticeRun := by
  simp [State.report]

@[simp] theorem State.clear_frame (mask : PerFactor Bool) (scope : ClearScope) (s : State) :
    (s.clear mask scope).powered = s.powered ∧ (s.clear mask scope).resetnHigh = s.resetnHigh ∧
      (s.clear mask scope).rate = s.rate ∧ (s.clear mask scope).dn = s.dn ∧ (s.clear mask scope).framer = s.framer ∧
      (s.clear mask scope).link = s.link ∧ (s.clear mask scope).position = s.position ∧
      (s.clear mask scope).delay = s.delay ∧ (s.clear mask scope).trialStreak = s.trialStreak ∧
      (s.clear mask scope).reaction = s.reaction ∧ (s.clear mask scope).queue = s.queue ∧ (s.clear mask scope).op = s.op ∧
      (s.clear mask scope).pending = s.pending ∧ (s.clear mask scope).table.w0 = s.table.w0 ∧
      (s.clear mask scope).table.w1 = s.table.w1 ∧ (s.clear mask scope).alert.levels = s.alert.levels ∧
      (s.clear mask scope).alert.threshold = s.alert.threshold ∧
      (s.clear mask scope).alert.noticeEnable = s.alert.noticeEnable ∧
      (s.clear mask scope).alert.noticeWaiting = s.alert.noticeWaiting ∧
      (s.clear mask scope).alert.noticeCause = s.alert.noticeCause ∧
      (s.clear mask scope).alert.noticeRun = s.alert.noticeRun := by
  simp [State.clear]

@[simp] theorem State.endOperation_frame (c : EndCause) (h : TrialLeave) (s : State) :
    (s.endOperation c h).powered = s.powered ∧ (s.endOperation c h).resetnHigh = s.resetnHigh ∧
      (s.endOperation c h).rate = s.rate ∧ (s.endOperation c h).dn = s.dn ∧ (s.endOperation c h).framer = s.framer ∧
      (s.endOperation c h).link = s.link ∧ (s.endOperation c h).position = s.position ∧
      (s.endOperation c h).delay = s.delay ∧ (s.endOperation c h).reaction = s.reaction ∧
      (s.endOperation c h).queue = s.queue ∧ (s.endOperation c h).pending = s.pending ∧
      (s.endOperation c h).table.w0 = s.table.w0 ∧ (s.endOperation c h).table.w1 = s.table.w1 ∧
      (s.endOperation c h).alert.levels = s.alert.levels ∧ (s.endOperation c h).alert.threshold = s.alert.threshold ∧
      (s.endOperation c h).alert.noticeEnable = s.alert.noticeEnable ∧
      (s.endOperation c h).alert.noticeRun = s.alert.noticeRun ∧ (s.endOperation c h).op.fifo = s.op.fifo := by
  unfold State.endOperation; split <;> simp

@[simp] theorem State.timeEntry_frame (i : Nat) (s : State) :
    (s.timeEntry i).powered = s.powered ∧ (s.timeEntry i).resetnHigh = s.resetnHigh ∧ (s.timeEntry i).rate = s.rate ∧
      (s.timeEntry i).dn = s.dn ∧ (s.timeEntry i).framer = s.framer ∧ (s.timeEntry i).link = s.link ∧
      (s.timeEntry i).position = s.position ∧ (s.timeEntry i).delay = s.delay ∧ (s.timeEntry i).trialStreak = s.trialStreak ∧
      (s.timeEntry i).reaction = s.reaction ∧ (s.timeEntry i).op = s.op ∧ (s.timeEntry i).pending = s.pending ∧
      (s.timeEntry i).table.w0 = s.table.w0 ∧ (s.timeEntry i).table.w1 = s.table.w1 ∧
      (s.timeEntry i).alert.levels = s.alert.levels ∧ (s.timeEntry i).alert.threshold = s.alert.threshold ∧
      (s.timeEntry i).alert.noticeEnable = s.alert.noticeEnable ∧ (s.timeEntry i).alert.noticeRun = s.alert.noticeRun := by
  unfold State.timeEntry; split <;> simp

@[simp] theorem State.tripIsolation_frame (r : Reaction) (s : State) :
    (s.tripIsolation r).powered = s.powered ∧ (s.tripIsolation r).resetnHigh = s.resetnHigh ∧
      (s.tripIsolation r).rate = s.rate ∧ (s.tripIsolation r).dn = s.dn ∧ (s.tripIsolation r).framer = s.framer ∧
      (s.tripIsolation r).link = s.link ∧ (s.tripIsolation r).position = s.position ∧ (s.tripIsolation r).delay = s.delay ∧
      (s.tripIsolation r).table = s.table ∧ (s.tripIsolation r).trialStreak = s.trialStreak ∧
      (s.tripIsolation r).queue = s.queue ∧ (s.tripIsolation r).op = s.op ∧ (s.tripIsolation r).pending = s.pending ∧
      (s.tripIsolation r).reaction.store = s.reaction.store ∧ (s.tripIsolation r).alert.levels = s.alert.levels ∧
      (s.tripIsolation r).alert.threshold = s.alert.threshold ∧
      (s.tripIsolation r).alert.noticeEnable = s.alert.noticeEnable ∧
      (s.tripIsolation r).alert.noticeRun = s.alert.noticeRun := by
  unfold State.tripIsolation; split <;> simp

@[simp] theorem State.react_frame (o : Outcome) (d : DataRecord) (s : State) :
    (s.react o d).powered = s.powered ∧ (s.react o d).resetnHigh = s.resetnHigh ∧ (s.react o d).rate = s.rate ∧
      (s.react o d).dn = s.dn ∧ (s.react o d).framer = s.framer ∧ (s.react o d).link = s.link ∧
      (s.react o d).position = s.position ∧ (s.react o d).table = s.table ∧ (s.react o d).trialStreak = s.trialStreak ∧
      (s.react o d).reaction = s.reaction ∧ (s.react o d).alert = s.alert ∧ (s.react o d).queue = s.queue ∧
      (s.react o d).op = s.op ∧ (s.react o d).pending = s.pending := by
  simp [State.react]

@[simp] theorem State.linkTrainEnd_frame (l : LinkState) (b c : Bool) (s : State) :
    (s.linkTrainEnd l b c).powered = s.powered ∧ (s.linkTrainEnd l b c).resetnHigh = s.resetnHigh ∧
      (s.linkTrainEnd l b c).rate = s.rate ∧ (s.linkTrainEnd l b c).dn = s.dn ∧ (s.linkTrainEnd l b c).framer = s.framer ∧
      (s.linkTrainEnd l b c).position = s.position ∧ (s.linkTrainEnd l b c).table = s.table ∧
      (s.linkTrainEnd l b c).trialStreak = s.trialStreak ∧ (s.linkTrainEnd l b c).reaction = s.reaction ∧
      (s.linkTrainEnd l b c).alert = s.alert ∧ (s.linkTrainEnd l b c).queue = s.queue ∧ (s.linkTrainEnd l b c).op = s.op ∧
      (s.linkTrainEnd l b c).pending = s.pending ∧ (s.linkTrainEnd l b c).link.draining = s.link.draining ∧
      (s.linkTrainEnd l b c).link.drainTa = s.link.drainTa := by
  unfold State.linkTrainEnd; split <;> simp

@[simp] theorem State.headerRead_frame (s : State) :
    s.headerRead.powered = s.powered ∧ s.headerRead.resetnHigh = s.resetnHigh ∧ s.headerRead.rate = s.rate ∧
      s.headerRead.dn = s.dn ∧ s.headerRead.framer = s.framer ∧ s.headerRead.table = s.table ∧
      s.headerRead.trialStreak = s.trialStreak ∧ s.headerRead.reaction = s.reaction ∧ s.headerRead.queue = s.queue ∧
      s.headerRead.op = s.op ∧ s.headerRead.pending = s.pending ∧ s.headerRead.link.mode = s.link.mode ∧
      s.headerRead.link.pendingMode = s.link.pendingMode ∧ s.headerRead.link.bypassClosed = s.link.bypassClosed ∧
      s.headerRead.link.draining = s.link.draining ∧ s.headerRead.link.drainTa = s.link.drainTa ∧
      s.headerRead.alert.levels = s.alert.levels ∧ s.headerRead.alert.threshold = s.alert.threshold ∧
      s.headerRead.alert.noticeEnable = s.alert.noticeEnable := by
  unfold State.headerRead; dsimp only; split <;> simp

@[simp] theorem State.drainTick_frame (s : State) :
    s.drainTick.powered = s.powered ∧ s.drainTick.resetnHigh = s.resetnHigh ∧ s.drainTick.rate = s.rate ∧
      s.drainTick.framer = s.framer ∧ s.drainTick.position = s.position ∧ s.drainTick.table = s.table ∧
      s.drainTick.trialStreak = s.trialStreak ∧ s.drainTick.reaction = s.reaction ∧ s.drainTick.alert = s.alert ∧
      s.drainTick.queue = s.queue ∧ s.drainTick.op = s.op ∧ s.drainTick.pending = s.pending ∧
      s.drainTick.link.state = s.link.state ∧ s.drainTick.link.cleanCount = s.link.cleanCount ∧
      s.drainTick.link.mode = s.link.mode ∧ s.drainTick.link.pendingMode = s.link.pendingMode ∧
      s.drainTick.link.heldCount = s.link.heldCount := by
  unfold State.drainTick; dsimp only
  repeat' split
  all_goals simp

@[simp] theorem State.bodyFill_frame (s : State) :
    s.bodyFill.powered = s.powered ∧ s.bodyFill.resetnHigh = s.resetnHigh ∧ s.bodyFill.rate = s.rate ∧ s.bodyFill.dn = s.dn ∧
      s.bodyFill.framer = s.framer ∧ s.bodyFill.link = s.link ∧ s.bodyFill.position = s.position ∧
      s.bodyFill.table = s.table ∧ s.bodyFill.trialStreak = s.trialStreak ∧ s.bodyFill.reaction = s.reaction ∧
      s.bodyFill.queue = s.queue ∧ s.bodyFill.op = s.op ∧ s.bodyFill.pending = s.pending ∧
      s.bodyFill.alert.flags = s.alert.flags ∧ s.bodyFill.alert.levels = s.alert.levels ∧
      s.bodyFill.alert.threshold = s.alert.threshold ∧ s.bodyFill.alert.noticeEnable = s.alert.noticeEnable ∧
      s.bodyFill.alert.noticeCause = s.alert.noticeCause ∧ s.bodyFill.alert.alertn = s.alert.alertn := by
  simp [State.bodyFill]

@[simp] theorem State.timeEntriesFrom_frame (n i : Nat) (s : State) :
    (s.timeEntriesFrom n i).powered = s.powered ∧ (s.timeEntriesFrom n i).resetnHigh = s.resetnHigh ∧
      (s.timeEntriesFrom n i).rate = s.rate ∧ (s.timeEntriesFrom n i).dn = s.dn ∧ (s.timeEntriesFrom n i).framer = s.framer ∧
      (s.timeEntriesFrom n i).link = s.link ∧ (s.timeEntriesFrom n i).position = s.position ∧
      (s.timeEntriesFrom n i).delay = s.delay ∧ (s.timeEntriesFrom n i).trialStreak = s.trialStreak ∧
      (s.timeEntriesFrom n i).reaction = s.reaction ∧ (s.timeEntriesFrom n i).op = s.op ∧
      (s.timeEntriesFrom n i).pending = s.pending ∧ (s.timeEntriesFrom n i).table.w0 = s.table.w0 ∧
      (s.timeEntriesFrom n i).table.w1 = s.table.w1 ∧ (s.timeEntriesFrom n i).alert.levels = s.alert.levels ∧
      (s.timeEntriesFrom n i).alert.threshold = s.alert.threshold ∧
      (s.timeEntriesFrom n i).alert.noticeEnable = s.alert.noticeEnable ∧
      (s.timeEntriesFrom n i).alert.noticeRun = s.alert.noticeRun := by
  induction n generalizing i s with
  | zero => simp [State.timeEntriesFrom]
  | succ n ih => simp [State.timeEntriesFrom, ih]

@[simp] theorem State.clearFactor_frame (f : Factor) (s : State) :
    (s.clearFactor f).powered = s.powered ∧ (s.clearFactor f).resetnHigh = s.resetnHigh ∧ (s.clearFactor f).rate = s.rate ∧
      (s.clearFactor f).dn = s.dn ∧ (s.clearFactor f).framer = s.framer ∧ (s.clearFactor f).link = s.link ∧
      (s.clearFactor f).position = s.position ∧ (s.clearFactor f).delay = s.delay ∧ (s.clearFactor f).table = s.table ∧
      (s.clearFactor f).trialStreak = s.trialStreak ∧ (s.clearFactor f).reaction = s.reaction ∧
      (s.clearFactor f).queue = s.queue ∧ (s.clearFactor f).op = s.op ∧ (s.clearFactor f).pending = s.pending ∧
      (s.clearFactor f).alert.levels = s.alert.levels ∧ (s.clearFactor f).alert.threshold = s.alert.threshold ∧
      (s.clearFactor f).alert.noticeEnable = s.alert.noticeEnable ∧
      (s.clearFactor f).alert.noticeWaiting = s.alert.noticeWaiting ∧
      (s.clearFactor f).alert.noticeCause = s.alert.noticeCause ∧ (s.clearFactor f).alert.noticeRun = s.alert.noticeRun := by
  simp [State.clearFactor]

@[simp] theorem State.reportInPath_frame (c : Nat) (s : State) :
    (s.reportInPath c).powered = s.powered ∧ (s.reportInPath c).resetnHigh = s.resetnHigh ∧
      (s.reportInPath c).rate = s.rate ∧ (s.reportInPath c).dn = s.dn ∧ (s.reportInPath c).framer = s.framer ∧
      (s.reportInPath c).link = s.link ∧ (s.reportInPath c).position = s.position ∧ (s.reportInPath c).delay = s.delay ∧
      (s.reportInPath c).table = s.table ∧ (s.reportInPath c).trialStreak = s.trialStreak ∧
      (s.reportInPath c).reaction = s.reaction ∧ (s.reportInPath c).op = s.op ∧ (s.reportInPath c).pending = s.pending ∧
      (s.reportInPath c).alert.levels = s.alert.levels ∧ (s.reportInPath c).alert.threshold = s.alert.threshold ∧
      (s.reportInPath c).alert.noticeEnable = s.alert.noticeEnable ∧
      (s.reportInPath c).alert.noticeRun = s.alert.noticeRun := by
  unfold State.reportInPath; split <;> simp

@[simp] theorem State.abortOperation_frame (s : State) :
    s.abortOperation.powered = s.powered ∧ s.abortOperation.resetnHigh = s.resetnHigh ∧ s.abortOperation.rate = s.rate ∧
      s.abortOperation.dn = s.dn ∧ s.abortOperation.framer = s.framer ∧ s.abortOperation.link = s.link ∧
      s.abortOperation.position = s.position ∧ s.abortOperation.delay = s.delay ∧ s.abortOperation.reaction = s.reaction ∧
      s.abortOperation.queue = s.queue ∧ s.abortOperation.pending = s.pending ∧ s.abortOperation.table.w0 = s.table.w0 ∧
      s.abortOperation.table.w1 = s.table.w1 ∧ s.abortOperation.alert.levels = s.alert.levels ∧
      s.abortOperation.alert.threshold = s.alert.threshold ∧ s.abortOperation.alert.noticeEnable = s.alert.noticeEnable ∧
      s.abortOperation.alert.noticeRun = s.alert.noticeRun ∧ s.abortOperation.op.fifo = s.op.fifo := by
  simp [State.abortOperation]

@[simp] theorem State.captureRecord_frame (d : DataRecord) (s : State) :
    (s.captureRecord d).powered = s.powered ∧ (s.captureRecord d).resetnHigh = s.resetnHigh ∧
      (s.captureRecord d).rate = s.rate ∧ (s.captureRecord d).dn = s.dn ∧ (s.captureRecord d).framer = s.framer ∧
      (s.captureRecord d).link = s.link ∧ (s.captureRecord d).position = s.position ∧ (s.captureRecord d).delay = s.delay ∧
      (s.captureRecord d).reaction = s.reaction ∧ (s.captureRecord d).queue = s.queue ∧
      (s.captureRecord d).pending = s.pending ∧ (s.captureRecord d).table.w0 = s.table.w0 ∧
      (s.captureRecord d).table.w1 = s.table.w1 ∧ (s.captureRecord d).alert.levels = s.alert.levels ∧
      (s.captureRecord d).alert.threshold = s.alert.threshold ∧
      (s.captureRecord d).alert.noticeEnable = s.alert.noticeEnable ∧
      (s.captureRecord d).alert.noticeRun = s.alert.noticeRun := by
  unfold State.captureRecord
  repeat' split
  all_goals simp

@[simp] theorem State.captureTrainEnd_frame (s : State) :
    s.captureTrainEnd.powered = s.powered ∧ s.captureTrainEnd.resetnHigh = s.resetnHigh ∧ s.captureTrainEnd.rate = s.rate ∧
      s.captureTrainEnd.dn = s.dn ∧ s.captureTrainEnd.framer = s.framer ∧ s.captureTrainEnd.link = s.link ∧
      s.captureTrainEnd.position = s.position ∧ s.captureTrainEnd.delay = s.delay ∧ s.captureTrainEnd.reaction = s.reaction ∧
      s.captureTrainEnd.queue = s.queue ∧ s.captureTrainEnd.pending = s.pending ∧ s.captureTrainEnd.table.w0 = s.table.w0 ∧
      s.captureTrainEnd.table.w1 = s.table.w1 ∧ s.captureTrainEnd.alert.levels = s.alert.levels ∧
      s.captureTrainEnd.alert.threshold = s.alert.threshold ∧ s.captureTrainEnd.alert.noticeEnable = s.alert.noticeEnable ∧
      s.captureTrainEnd.alert.noticeRun = s.alert.noticeRun ∧ s.captureTrainEnd.op.fifo = s.op.fifo := by
  unfold State.captureTrainEnd
  repeat' split
  all_goals simp

@[simp] theorem State.trialTrainEnd_frame (s : State) :
    s.trialTrainEnd.powered = s.powered ∧ s.trialTrainEnd.resetnHigh = s.resetnHigh ∧ s.trialTrainEnd.rate = s.rate ∧
      s.trialTrainEnd.dn = s.dn ∧ s.trialTrainEnd.framer = s.framer ∧ s.trialTrainEnd.link = s.link ∧
      s.trialTrainEnd.position = s.position ∧ s.trialTrainEnd.delay = s.delay ∧ s.trialTrainEnd.reaction = s.reaction ∧
      s.trialTrainEnd.queue = s.queue ∧ s.trialTrainEnd.pending = s.pending ∧ s.trialTrainEnd.table.w0 = s.table.w0 ∧
      s.trialTrainEnd.table.w1 = s.table.w1 ∧ s.trialTrainEnd.alert.levels = s.alert.levels ∧
      s.trialTrainEnd.alert.threshold = s.alert.threshold ∧ s.trialTrainEnd.alert.noticeEnable = s.alert.noticeEnable ∧
      s.trialTrainEnd.alert.noticeRun = s.alert.noticeRun ∧ s.trialTrainEnd.op.fifo = s.op.fifo := by
  unfold State.trialTrainEnd
  repeat' split
  all_goals simp

@[simp] theorem State.timingUpdate_frame (s : State) :
    s.timingUpdate.powered = s.powered ∧ s.timingUpdate.resetnHigh = s.resetnHigh ∧ s.timingUpdate.rate = s.rate ∧
      s.timingUpdate.dn = s.dn ∧ s.timingUpdate.framer = s.framer ∧ s.timingUpdate.link = s.link ∧
      s.timingUpdate.position = s.position ∧ s.timingUpdate.delay = s.delay ∧ s.timingUpdate.trialStreak = s.trialStreak ∧
      s.timingUpdate.reaction = s.reaction ∧ s.timingUpdate.op = s.op ∧ s.timingUpdate.pending = s.pending ∧
      s.timingUpdate.table.w0 = s.table.w0 ∧ s.timingUpdate.table.w1 = s.table.w1 ∧
      s.timingUpdate.alert.levels = s.alert.levels ∧ s.timingUpdate.alert.threshold = s.alert.threshold ∧
      s.timingUpdate.alert.noticeEnable = s.alert.noticeEnable ∧ s.timingUpdate.alert.noticeRun = s.alert.noticeRun := by
  simp [State.timingUpdate]

@[simp] theorem State.takeStatusByte_frame (n : Nat) (b : Byte) (s : State) :
    (s.takeStatusByte n b).powered = s.powered ∧ (s.takeStatusByte n b).resetnHigh = s.resetnHigh ∧
      (s.takeStatusByte n b).rate = s.rate ∧ (s.takeStatusByte n b).dn = s.dn ∧ (s.takeStatusByte n b).table = s.table ∧
      (s.takeStatusByte n b).trialStreak = s.trialStreak ∧ (s.takeStatusByte n b).reaction = s.reaction ∧
      (s.takeStatusByte n b).queue = s.queue ∧ (s.takeStatusByte n b).op = s.op ∧
      (s.takeStatusByte n b).pending = s.pending ∧ (s.takeStatusByte n b).framer.slotCount = s.framer.slotCount ∧
      (s.takeStatusByte n b).framer.flags = s.framer.flags ∧ (s.takeStatusByte n b).framer.sequence = s.framer.sequence ∧
      (s.takeStatusByte n b).framer.symbolCount = s.framer.symbolCount ∧
      (s.takeStatusByte n b).framer.trainFaulted = s.framer.trainFaulted ∧
      (s.takeStatusByte n b).framer.strayReported = s.framer.strayReported ∧
      (s.takeStatusByte n b).framer.signal = s.framer.signal ∧ (s.takeStatusByte n b).framer.silence = s.framer.silence ∧
      (s.takeStatusByte n b).link.mode = s.link.mode ∧ (s.takeStatusByte n b).link.pendingMode = s.link.pendingMode ∧
      (s.takeStatusByte n b).link.bypassClosed = s.link.bypassClosed ∧
      (s.takeStatusByte n b).link.draining = s.link.draining ∧ (s.takeStatusByte n b).link.drainTa = s.link.drainTa ∧
      (s.takeStatusByte n b).alert.levels = s.alert.levels ∧ (s.takeStatusByte n b).alert.threshold = s.alert.threshold ∧
      (s.takeStatusByte n b).alert.noticeEnable = s.alert.noticeEnable := by
  unfold State.takeStatusByte; dsimp only; split <;> simp

@[simp] theorem State.endIsolation_frame (s : State) :
    s.endIsolation.powered = s.powered ∧ s.endIsolation.resetnHigh = s.resetnHigh ∧ s.endIsolation.rate = s.rate ∧
      s.endIsolation.dn = s.dn ∧ s.endIsolation.framer = s.framer ∧ s.endIsolation.link = s.link ∧
      s.endIsolation.position = s.position ∧ s.endIsolation.delay = s.delay ∧ s.endIsolation.table = s.table ∧
      s.endIsolation.trialStreak = s.trialStreak ∧ s.endIsolation.queue = s.queue ∧ s.endIsolation.op = s.op ∧
      s.endIsolation.pending = s.pending ∧ s.endIsolation.reaction.store = s.reaction.store ∧
      s.endIsolation.alert.levels = s.alert.levels ∧ s.endIsolation.alert.threshold = s.alert.threshold ∧
      s.endIsolation.alert.noticeEnable = s.alert.noticeEnable ∧ s.endIsolation.alert.noticeWaiting = s.alert.noticeWaiting ∧
      s.endIsolation.alert.noticeCause = s.alert.noticeCause ∧ s.endIsolation.alert.noticeRun = s.alert.noticeRun := by
  simp [State.endIsolation]

@[simp] theorem State.tripAbort_frame (s : State) :
    s.tripAbort.powered = s.powered ∧ s.tripAbort.resetnHigh = s.resetnHigh ∧ s.tripAbort.rate = s.rate ∧
      s.tripAbort.dn = s.dn ∧ s.tripAbort.framer = s.framer ∧ s.tripAbort.link = s.link ∧ s.tripAbort.position = s.position ∧
      s.tripAbort.delay = s.delay ∧ s.tripAbort.reaction = s.reaction ∧ s.tripAbort.queue = s.queue ∧
      s.tripAbort.pending = s.pending ∧ s.tripAbort.table.w0 = s.table.w0 ∧ s.tripAbort.table.w1 = s.table.w1 ∧
      s.tripAbort.alert.levels = s.alert.levels ∧ s.tripAbort.alert.threshold = s.alert.threshold ∧
      s.tripAbort.alert.noticeEnable = s.alert.noticeEnable ∧ s.tripAbort.alert.noticeRun = s.alert.noticeRun ∧
      s.tripAbort.op.fifo = s.op.fifo := by
  unfold State.tripAbort; split <;> simp

@[simp] theorem State.trainAbort_frame (s : State) :
    s.trainAbort.powered = s.powered ∧ s.trainAbort.resetnHigh = s.resetnHigh ∧ s.trainAbort.rate = s.rate ∧
      s.trainAbort.dn = s.dn ∧ s.trainAbort.framer = s.framer ∧ s.trainAbort.link = s.link ∧
      s.trainAbort.position = s.position ∧ s.trainAbort.delay = s.delay ∧ s.trainAbort.reaction = s.reaction ∧
      s.trainAbort.queue = s.queue ∧ s.trainAbort.pending = s.pending ∧ s.trainAbort.table.w0 = s.table.w0 ∧
      s.trainAbort.table.w1 = s.table.w1 ∧ s.trainAbort.alert.levels = s.alert.levels ∧
      s.trainAbort.alert.threshold = s.alert.threshold ∧ s.trainAbort.alert.noticeEnable = s.alert.noticeEnable ∧
      s.trainAbort.alert.noticeRun = s.alert.noticeRun ∧ s.trainAbort.op.fifo = s.op.fifo := by
  unfold State.trainAbort; split <;> simp

@[simp] theorem State.trainEndInPath_frame (s : State) :
    s.trainEndInPath.powered = s.powered ∧ s.trainEndInPath.resetnHigh = s.resetnHigh ∧ s.trainEndInPath.rate = s.rate ∧
      s.trainEndInPath.dn = s.dn ∧ s.trainEndInPath.framer = s.framer ∧ s.trainEndInPath.link = s.link ∧
      s.trainEndInPath.position = s.position ∧ s.trainEndInPath.delay = s.delay ∧ s.trainEndInPath.reaction = s.reaction ∧
      s.trainEndInPath.pending = s.pending ∧ s.trainEndInPath.table.w0 = s.table.w0 ∧
      s.trainEndInPath.table.w1 = s.table.w1 ∧ s.trainEndInPath.alert.levels = s.alert.levels ∧
      s.trainEndInPath.alert.threshold = s.alert.threshold ∧ s.trainEndInPath.alert.noticeEnable = s.alert.noticeEnable ∧
      s.trainEndInPath.alert.noticeRun = s.alert.noticeRun ∧ s.trainEndInPath.op.fifo = s.op.fifo := by
  unfold State.trainEndInPath; dsimp only
  repeat' split
  all_goals simp

@[simp] theorem State.abortQuietly_frame (s : State) :
    s.abortQuietly.powered = s.powered ∧ s.abortQuietly.resetnHigh = s.resetnHigh ∧ s.abortQuietly.rate = s.rate ∧
      s.abortQuietly.dn = s.dn ∧ s.abortQuietly.framer = s.framer ∧ s.abortQuietly.link = s.link ∧
      s.abortQuietly.position = s.position ∧ s.abortQuietly.delay = s.delay ∧ s.abortQuietly.reaction = s.reaction ∧
      s.abortQuietly.queue = s.queue ∧ s.abortQuietly.pending = s.pending ∧ s.abortQuietly.table.w0 = s.table.w0 ∧
      s.abortQuietly.table.w1 = s.table.w1 ∧ s.abortQuietly.alert.levels = s.alert.levels ∧
      s.abortQuietly.alert.threshold = s.alert.threshold ∧ s.abortQuietly.alert.noticeEnable = s.alert.noticeEnable ∧
      s.abortQuietly.alert.noticeWaiting = s.alert.noticeWaiting ∧ s.abortQuietly.alert.noticeCause = s.alert.noticeCause ∧
      s.abortQuietly.alert.noticeRun = s.alert.noticeRun ∧ s.abortQuietly.op.fifo = s.op.fifo := by
  simp [State.abortQuietly]

@[simp] theorem State.strayInBody_frame (s : State) :
    s.strayInBody.powered = s.powered ∧ s.strayInBody.resetnHigh = s.resetnHigh ∧ s.strayInBody.rate = s.rate ∧
      s.strayInBody.dn = s.dn ∧ s.strayInBody.link = s.link ∧ s.strayInBody.position = s.position ∧
      s.strayInBody.delay = s.delay ∧ s.strayInBody.table = s.table ∧ s.strayInBody.trialStreak = s.trialStreak ∧
      s.strayInBody.reaction = s.reaction ∧ s.strayInBody.op = s.op ∧ s.strayInBody.pending = s.pending ∧
      s.strayInBody.framer.position = s.framer.position ∧ s.strayInBody.framer.slotCount = s.framer.slotCount ∧
      s.strayInBody.framer.flags = s.framer.flags ∧ s.strayInBody.framer.sequence = s.framer.sequence ∧
      s.strayInBody.framer.statusBytes = s.framer.statusBytes ∧ s.strayInBody.framer.symbolCount = s.framer.symbolCount ∧
      s.strayInBody.framer.signal = s.framer.signal ∧ s.strayInBody.framer.silence = s.framer.silence ∧
      s.strayInBody.alert.levels = s.alert.levels ∧ s.strayInBody.alert.threshold = s.alert.threshold ∧
      s.strayInBody.alert.noticeEnable = s.alert.noticeEnable := by
  unfold State.strayInBody; dsimp only; split <;> simp

@[simp] theorem State.strayOutside_frame (s : State) :
    s.strayOutside.powered = s.powered ∧ s.strayOutside.resetnHigh = s.resetnHigh ∧ s.strayOutside.rate = s.rate ∧
      s.strayOutside.dn = s.dn ∧ s.strayOutside.position = s.position ∧ s.strayOutside.delay = s.delay ∧
      s.strayOutside.table = s.table ∧ s.strayOutside.trialStreak = s.trialStreak ∧ s.strayOutside.reaction = s.reaction ∧
      s.strayOutside.op = s.op ∧ s.strayOutside.pending = s.pending ∧ s.strayOutside.framer.position = s.framer.position ∧
      s.strayOutside.framer.slotCount = s.framer.slotCount ∧ s.strayOutside.framer.flags = s.framer.flags ∧
      s.strayOutside.framer.sequence = s.framer.sequence ∧ s.strayOutside.framer.statusBytes = s.framer.statusBytes ∧
      s.strayOutside.framer.symbolCount = s.framer.symbolCount ∧ s.strayOutside.framer.trainFaulted = s.framer.trainFaulted ∧
      s.strayOutside.framer.signal = s.framer.signal ∧ s.strayOutside.framer.silence = s.framer.silence ∧
      s.strayOutside.link.state.inPath = s.link.state.inPath ∧ s.strayOutside.link.mode = s.link.mode ∧
      s.strayOutside.link.pendingMode = s.link.pendingMode ∧ s.strayOutside.link.heldCount = s.link.heldCount ∧
      s.strayOutside.link.bypassClosed = s.link.bypassClosed ∧ s.strayOutside.link.draining = s.link.draining ∧
      s.strayOutside.link.drainTa = s.link.drainTa ∧ s.strayOutside.alert.levels = s.alert.levels ∧
      s.strayOutside.alert.threshold = s.alert.threshold ∧ s.strayOutside.alert.noticeEnable = s.alert.noticeEnable ∧
      s.strayOutside.alert.noticeRun = s.alert.noticeRun := by
  unfold State.strayOutside; split <;> simp

@[simp] theorem State.cutRecord_frame (s : State) :
    s.cutRecord.powered = s.powered ∧ s.cutRecord.resetnHigh = s.resetnHigh ∧ s.cutRecord.rate = s.rate ∧
      s.cutRecord.dn = s.dn ∧ s.cutRecord.link = s.link ∧ s.cutRecord.position = s.position ∧ s.cutRecord.delay = s.delay ∧
      s.cutRecord.table = s.table ∧ s.cutRecord.trialStreak = s.trialStreak ∧ s.cutRecord.reaction = s.reaction ∧
      s.cutRecord.op = s.op ∧ s.cutRecord.pending = s.pending ∧ s.cutRecord.framer.slotCount = s.framer.slotCount ∧
      s.cutRecord.framer.flags = s.framer.flags ∧ s.cutRecord.framer.sequence = s.framer.sequence ∧
      s.cutRecord.framer.statusBytes = s.framer.statusBytes ∧ s.cutRecord.framer.symbolCount = s.framer.symbolCount ∧
      s.cutRecord.framer.strayReported = s.framer.strayReported ∧ s.cutRecord.framer.signal = s.framer.signal ∧
      s.cutRecord.framer.silence = s.framer.silence ∧ s.cutRecord.alert.levels = s.alert.levels ∧
      s.cutRecord.alert.threshold = s.alert.threshold ∧ s.cutRecord.alert.noticeEnable = s.alert.noticeEnable ∧
      s.cutRecord.alert.noticeRun = s.alert.noticeRun := by
  simp [State.cutRecord]

@[simp] theorem State.damagedRecord_frame (s : State) :
    s.damagedRecord.powered = s.powered ∧ s.damagedRecord.resetnHigh = s.resetnHigh ∧ s.damagedRecord.rate = s.rate ∧
      s.damagedRecord.dn = s.dn ∧ s.damagedRecord.link = s.link ∧ s.damagedRecord.position = s.position ∧
      s.damagedRecord.delay = s.delay ∧ s.damagedRecord.table = s.table ∧ s.damagedRecord.trialStreak = s.trialStreak ∧
      s.damagedRecord.reaction = s.reaction ∧ s.damagedRecord.op = s.op ∧ s.damagedRecord.pending = s.pending ∧
      s.damagedRecord.framer.position = s.framer.position ∧ s.damagedRecord.framer.slotCount = s.framer.slotCount ∧
      s.damagedRecord.framer.flags = s.framer.flags ∧ s.damagedRecord.framer.sequence = s.framer.sequence ∧
      s.damagedRecord.framer.statusBytes = s.framer.statusBytes ∧ s.damagedRecord.framer.symbolCount = s.framer.symbolCount ∧
      s.damagedRecord.framer.strayReported = s.framer.strayReported ∧ s.damagedRecord.framer.signal = s.framer.signal ∧
      s.damagedRecord.framer.silence = s.framer.silence ∧ s.damagedRecord.alert.levels = s.alert.levels ∧
      s.damagedRecord.alert.threshold = s.alert.threshold ∧ s.damagedRecord.alert.noticeEnable = s.alert.noticeEnable ∧
      s.damagedRecord.alert.noticeRun = s.alert.noticeRun := by
  simp [State.damagedRecord]

@[simp] theorem State.tripActions_frame (i : Nat) (r : Reaction) (v : Option Word) (s : State) :
    (s.tripActions i r v).powered = s.powered ∧ (s.tripActions i r v).resetnHigh = s.resetnHigh ∧
      (s.tripActions i r v).rate = s.rate ∧ (s.tripActions i r v).dn = s.dn ∧ (s.tripActions i r v).framer = s.framer ∧
      (s.tripActions i r v).link = s.link ∧ (s.tripActions i r v).position = s.position ∧
      (s.tripActions i r v).delay = s.delay ∧ (s.tripActions i r v).pending = s.pending ∧
      (s.tripActions i r v).table.w0 = s.table.w0 ∧ (s.tripActions i r v).table.w1 = s.table.w1 ∧
      (s.tripActions i r v).reaction.store = s.reaction.store ∧ (s.tripActions i r v).alert.levels = s.alert.levels ∧
      (s.tripActions i r v).alert.threshold = s.alert.threshold ∧
      (s.tripActions i r v).alert.noticeEnable = s.alert.noticeEnable ∧
      (s.tripActions i r v).alert.noticeRun = s.alert.noticeRun ∧ (s.tripActions i r v).op.fifo = s.op.fifo := by
  simp [State.tripActions]

@[simp] theorem State.trainEnd_frame (b : Bool) (s : State) :
    (s.trainEnd b).powered = s.powered ∧ (s.trainEnd b).resetnHigh = s.resetnHigh ∧ (s.trainEnd b).rate = s.rate ∧
      (s.trainEnd b).dn = s.dn ∧ (s.trainEnd b).reaction = s.reaction ∧ (s.trainEnd b).pending = s.pending ∧
      (s.trainEnd b).framer.sequence = s.framer.sequence ∧ (s.trainEnd b).framer.trainFaulted = s.framer.trainFaulted ∧
      (s.trainEnd b).framer.signal = s.framer.signal ∧ (s.trainEnd b).framer.silence = s.framer.silence ∧
      (s.trainEnd b).link.draining = s.link.draining ∧ (s.trainEnd b).link.drainTa = s.link.drainTa ∧
      (s.trainEnd b).table.w0 = s.table.w0 ∧ (s.trainEnd b).table.w1 = s.table.w1 ∧
      (s.trainEnd b).alert.levels = s.alert.levels ∧ (s.trainEnd b).alert.threshold = s.alert.threshold ∧
      (s.trainEnd b).alert.noticeEnable = s.alert.noticeEnable ∧ (s.trainEnd b).op.fifo = s.op.fifo := by
  unfold State.trainEnd; split <;> simp

@[simp] theorem State.openTrain_frame (s : State) :
    s.openTrain.powered = s.powered ∧ s.openTrain.resetnHigh = s.resetnHigh ∧ s.openTrain.rate = s.rate ∧
      s.openTrain.dn = s.dn ∧ s.openTrain.link = s.link ∧ s.openTrain.delay = s.delay ∧ s.openTrain.reaction = s.reaction ∧
      s.openTrain.queue = s.queue ∧ s.openTrain.pending = s.pending ∧ s.openTrain.framer.signal = s.framer.signal ∧
      s.openTrain.framer.silence = s.framer.silence ∧ s.openTrain.table.w0 = s.table.w0 ∧ s.openTrain.table.w1 = s.table.w1 ∧
      s.openTrain.alert.levels = s.alert.levels ∧ s.openTrain.alert.threshold = s.alert.threshold ∧
      s.openTrain.alert.noticeEnable = s.alert.noticeEnable ∧ s.openTrain.op.fifo = s.op.fifo := by
  simp [State.openTrain]

@[simp] theorem State.restartWarm_frame (s : State) :
    s.restartWarm.powered = s.powered ∧ s.restartWarm.resetnHigh = s.resetnHigh ∧ s.restartWarm.rate = s.rate ∧
      s.restartWarm.dn = s.dn ∧ s.restartWarm.framer = s.framer ∧ s.restartWarm.link = s.link ∧
      s.restartWarm.position = s.position ∧ s.restartWarm.delay = s.delay ∧ s.restartWarm.pending = s.pending ∧
      s.restartWarm.table.w0 = s.table.w0 ∧ s.restartWarm.table.w1 = s.table.w1 ∧
      s.restartWarm.reaction.store = s.reaction.store ∧ s.restartWarm.alert.levels = s.alert.levels ∧
      s.restartWarm.alert.threshold = s.alert.threshold ∧ s.restartWarm.alert.noticeEnable = s.alert.noticeEnable ∧
      s.restartWarm.alert.noticeCause = s.alert.noticeCause ∧ s.restartWarm.alert.noticeRun = s.alert.noticeRun ∧
      s.restartWarm.queue.counter = s.queue.counter := by
  simp [State.restartWarm]

@[simp] theorem State.restartTable_frame (s : State) :
    s.restartTable.powered = s.powered ∧ s.restartTable.resetnHigh = s.resetnHigh ∧ s.restartTable.rate = s.rate ∧
      s.restartTable.dn = s.dn ∧ s.restartTable.framer = s.framer ∧ s.restartTable.link = s.link ∧
      s.restartTable.position = s.position ∧ s.restartTable.delay = s.delay ∧ s.restartTable.pending = s.pending ∧
      s.restartTable.alert.levels = s.alert.levels ∧ s.restartTable.alert.threshold = s.alert.threshold ∧
      s.restartTable.alert.noticeEnable = s.alert.noticeEnable ∧ s.restartTable.alert.noticeCause = s.alert.noticeCause ∧
      s.restartTable.alert.noticeRun = s.alert.noticeRun ∧ s.restartTable.queue.counter = s.queue.counter := by
  simp [State.restartTable]

@[simp] theorem State.takeLength_frame (r : RecordProgress) (b : Byte) (e : Bool) (s : State) :
    (s.takeLength r b e).powered = s.powered ∧ (s.takeLength r b e).resetnHigh = s.resetnHigh ∧
      (s.takeLength r b e).rate = s.rate ∧ (s.takeLength r b e).dn = s.dn ∧ (s.takeLength r b e).link = s.link ∧
      (s.takeLength r b e).position = s.position ∧ (s.takeLength r b e).delay = s.delay ∧
      (s.takeLength r b e).table = s.table ∧ (s.takeLength r b e).trialStreak = s.trialStreak ∧
      (s.takeLength r b e).reaction = s.reaction ∧ (s.takeLength r b e).op = s.op ∧
      (s.takeLength r b e).pending = s.pending ∧ (s.takeLength r b e).framer.slotCount = s.framer.slotCount ∧
      (s.takeLength r b e).framer.flags = s.framer.flags ∧ (s.takeLength r b e).framer.sequence = s.framer.sequence ∧
      (s.takeLength r b e).framer.statusBytes = s.framer.statusBytes ∧
      (s.takeLength r b e).framer.symbolCount = s.framer.symbolCount ∧
      (s.takeLength r b e).framer.strayReported = s.framer.strayReported ∧
      (s.takeLength r b e).framer.signal = s.framer.signal ∧ (s.takeLength r b e).framer.silence = s.framer.silence ∧
      (s.takeLength r b e).alert.levels = s.alert.levels ∧ (s.takeLength r b e).alert.threshold = s.alert.threshold ∧
      (s.takeLength r b e).alert.noticeEnable = s.alert.noticeEnable ∧
      (s.takeLength r b e).alert.noticeRun = s.alert.noticeRun := by
  unfold State.takeLength; split <;> simp

@[simp] theorem State.judgeArmed_frame (i : Nat) (d : DataRecord) (s : State) :
    (s.judgeArmed i d).powered = s.powered ∧ (s.judgeArmed i d).resetnHigh = s.resetnHigh ∧
      (s.judgeArmed i d).rate = s.rate ∧ (s.judgeArmed i d).dn = s.dn ∧ (s.judgeArmed i d).framer = s.framer ∧
      (s.judgeArmed i d).link = s.link ∧ (s.judgeArmed i d).position = s.position ∧ (s.judgeArmed i d).delay = s.delay ∧
      (s.judgeArmed i d).pending = s.pending ∧ (s.judgeArmed i d).table.w0 = s.table.w0 ∧
      (s.judgeArmed i d).table.w1 = s.table.w1 ∧ (s.judgeArmed i d).alert.levels = s.alert.levels ∧
      (s.judgeArmed i d).alert.threshold = s.alert.threshold ∧ (s.judgeArmed i d).alert.noticeEnable = s.alert.noticeEnable ∧
      (s.judgeArmed i d).alert.noticeRun = s.alert.noticeRun ∧ (s.judgeArmed i d).op.fifo = s.op.fifo := by
  unfold State.judgeArmed; dsimp only
  repeat' split
  all_goals simp

@[simp] theorem State.endTrain_frame (b : Bool) (s : State) :
    (s.endTrain b).powered = s.powered ∧ (s.endTrain b).resetnHigh = s.resetnHigh ∧ (s.endTrain b).rate = s.rate ∧
      (s.endTrain b).dn = s.dn ∧ (s.endTrain b).reaction = s.reaction ∧ (s.endTrain b).pending = s.pending ∧
      (s.endTrain b).framer.sequence = s.framer.sequence ∧ (s.endTrain b).framer.trainFaulted = s.framer.trainFaulted ∧
      (s.endTrain b).framer.signal = s.framer.signal ∧ (s.endTrain b).framer.silence = s.framer.silence ∧
      (s.endTrain b).link.draining = s.link.draining ∧ (s.endTrain b).link.drainTa = s.link.drainTa ∧
      (s.endTrain b).table.w0 = s.table.w0 ∧ (s.endTrain b).table.w1 = s.table.w1 ∧
      (s.endTrain b).alert.levels = s.alert.levels ∧ (s.endTrain b).alert.threshold = s.alert.threshold ∧
      (s.endTrain b).alert.noticeEnable = s.alert.noticeEnable ∧ (s.endTrain b).op.fifo = s.op.fifo := by
  unfold State.endTrain
  repeat' split
  all_goals simp

@[simp] theorem State.declareLoss_frame (s : State) :
    s.declareLoss.powered = s.powered ∧ s.declareLoss.resetnHigh = s.resetnHigh ∧ s.declareLoss.rate = s.rate ∧
      s.declareLoss.dn = s.dn ∧ s.declareLoss.reaction = s.reaction ∧ s.declareLoss.pending = s.pending ∧
      s.declareLoss.framer.sequence = s.framer.sequence ∧ s.declareLoss.framer.trainFaulted = s.framer.trainFaulted ∧
      s.declareLoss.table.w0 = s.table.w0 ∧ s.declareLoss.table.w1 = s.table.w1 ∧
      s.declareLoss.alert.levels = s.alert.levels ∧ s.declareLoss.alert.threshold = s.alert.threshold ∧
      s.declareLoss.alert.noticeEnable = s.alert.noticeEnable ∧ s.declareLoss.op.fifo = s.op.fifo := by
  unfold State.declareLoss; dsimp only; split <;> simp

@[simp] theorem State.takeOutside_frame (x : Symbol) (s : State) :
    (s.takeOutside x).powered = s.powered ∧ (s.takeOutside x).resetnHigh = s.resetnHigh ∧ (s.takeOutside x).rate = s.rate ∧
      (s.takeOutside x).dn = s.dn ∧ (s.takeOutside x).delay = s.delay ∧ (s.takeOutside x).reaction = s.reaction ∧
      (s.takeOutside x).pending = s.pending ∧ (s.takeOutside x).framer.signal = s.framer.signal ∧
      (s.takeOutside x).framer.silence = s.framer.silence ∧ (s.takeOutside x).link.state.inPath = s.link.state.inPath ∧
      (s.takeOutside x).link.mode = s.link.mode ∧ (s.takeOutside x).link.pendingMode = s.link.pendingMode ∧
      (s.takeOutside x).link.heldCount = s.link.heldCount ∧ (s.takeOutside x).link.bypassClosed = s.link.bypassClosed ∧
      (s.takeOutside x).link.draining = s.link.draining ∧ (s.takeOutside x).link.drainTa = s.link.drainTa ∧
      (s.takeOutside x).table.w0 = s.table.w0 ∧ (s.takeOutside x).table.w1 = s.table.w1 ∧
      (s.takeOutside x).alert.levels = s.alert.levels ∧ (s.takeOutside x).alert.threshold = s.alert.threshold ∧
      (s.takeOutside x).alert.noticeEnable = s.alert.noticeEnable ∧ (s.takeOutside x).op.fifo = s.op.fifo := by
  unfold State.takeOutside; split <;> simp

@[simp] theorem RequestKind.respond_frame (k : RequestKind) (operands : List Byte) (s : State) :
    (k.respond operands s).state.powered = s.powered ∧ (k.respond operands s).state.resetnHigh = s.resetnHigh ∧
      (k.respond operands s).state.rate = s.rate ∧ (k.respond operands s).state.dn = s.dn ∧
      (k.respond operands s).state.framer = s.framer ∧ (k.respond operands s).state.position = s.position ∧
      (k.respond operands s).state.delay = s.delay ∧ (k.respond operands s).state.pending = s.pending ∧
      (k.respond operands s).state.link.state = s.link.state ∧
      (k.respond operands s).state.link.cleanCount = s.link.cleanCount ∧ (k.respond operands s).state.link.mode = s.link.mode ∧
      (k.respond operands s).state.link.heldCount = s.link.heldCount ∧
      (k.respond operands s).state.link.bypassClosed = s.link.bypassClosed ∧
      (k.respond operands s).state.link.draining = s.link.draining ∧
      (k.respond operands s).state.link.drainTa = s.link.drainTa ∧
      (k.respond operands s).state.alert.noticeRun = s.alert.noticeRun := by
  unfold RequestKind.respond
  split
  · simp [refuse]
  · cases k <;> simp only [RequestKind.carryOut]
    case identify => simp [reqIdentify]
    case readStatus => simp [reqReadStatus]
    case setAlerts => simp only [reqSetAlerts]; split <;> simp [refuse, AlertUnit.adopt]
    case clearAlerts => simp only [reqClearAlerts]; repeat' split
                        all_goals simp [refuse, clearResponse]
    case takeIncidents => simp [reqTakeIncidents]
    case setWindows => simp only [reqSetWindows]; split <;> simp [refuse]
    case readEntry => simp only [reqReadEntry, withEntry]; repeat' split
                      all_goals simp [refuse]
    case loadEntry => simp only [reqLoadEntry, withEntry]; repeat' split
                      all_goals simp [refuse]
    case arm => simp only [reqArm, withEntry]; repeat' split
                all_goals simp [refuse, refuseEntry, acceptEntry]
    case disarm => simp only [reqDisarm, withEntry]; repeat' split
                   all_goals simp [refuse, refuseEntry, acceptEntry]
    case free => simp only [reqFree, withEntry]; repeat' split
                 all_goals simp [refuse, refuseEntry, acceptEntry]
    case loadSlot => simp only [reqLoadSlot]; repeat' split
                     all_goals simp [refuse]
    case readSlot => simp only [reqReadSlot]; split <;> simp [refuse]
    case setMode => simp only [reqSetMode]; repeat' split
                    all_goals simp [refuse, acceptMode]
    case release => simp only [reqRelease]; split <;> simp
    case restart => simp only [reqRestart]; split <;> simp [refuse]
    case startCapture => simp only [reqStartCapture]; repeat' split
                         all_goals simp [refuse]
    case readCapture => simp [reqReadCapture]
    case startTrial => simp only [reqStartTrial, withEntry]; repeat' split
                       all_goals simp [refuse, refuseEntry, acceptEntry]
    case abort => simp only [reqAbort]; split <;> simp [refuse, acceptAbort]

@[simp] theorem respond_frame (code : Byte) (operands : List Byte) (s : State) :
    (respond code operands s).state.powered = s.powered ∧ (respond code operands s).state.resetnHigh = s.resetnHigh ∧
      (respond code operands s).state.rate = s.rate ∧ (respond code operands s).state.dn = s.dn ∧
      (respond code operands s).state.framer = s.framer ∧ (respond code operands s).state.position = s.position ∧
      (respond code operands s).state.delay = s.delay ∧ (respond code operands s).state.pending = s.pending ∧
      (respond code operands s).state.link.state = s.link.state ∧
      (respond code operands s).state.link.cleanCount = s.link.cleanCount ∧ (respond code operands s).state.link.mode = s.link.mode ∧
      (respond code operands s).state.link.heldCount = s.link.heldCount ∧
      (respond code operands s).state.link.bypassClosed = s.link.bypassClosed ∧
      (respond code operands s).state.link.draining = s.link.draining ∧
      (respond code operands s).state.link.drainTa = s.link.drainTa ∧
      (respond code operands s).state.alert.noticeRun = s.alert.noticeRun := by
  unfold respond; split <;> simp [refuse]

@[simp] theorem State.answer_frame (p : Nat) (q : Request) (s : State) :
    (s.answer p q).powered = s.powered ∧ (s.answer p q).resetnHigh = s.resetnHigh ∧ (s.answer p q).rate = s.rate ∧
      (s.answer p q).dn = s.dn ∧ (s.answer p q).framer = s.framer ∧ (s.answer p q).position = s.position ∧
      (s.answer p q).pending = s.pending ∧ (s.answer p q).link.state = s.link.state ∧
      (s.answer p q).link.cleanCount = s.link.cleanCount ∧ (s.answer p q).link.mode = s.link.mode ∧
      (s.answer p q).link.heldCount = s.link.heldCount ∧ (s.answer p q).link.bypassClosed = s.link.bypassClosed ∧
      (s.answer p q).link.draining = s.link.draining ∧ (s.answer p q).link.drainTa = s.link.drainTa ∧
      (s.answer p q).alert.noticeRun = s.alert.noticeRun := by
  simp [State.answer]

@[simp] theorem State.takeBroadcast_frame (q : Request) (s : State) :
    (s.takeBroadcast q).powered = s.powered ∧ (s.takeBroadcast q).resetnHigh = s.resetnHigh ∧
      (s.takeBroadcast q).rate = s.rate ∧ (s.takeBroadcast q).dn = s.dn ∧ (s.takeBroadcast q).framer = s.framer ∧
      (s.takeBroadcast q).position = s.position ∧ (s.takeBroadcast q).delay = s.delay ∧
      (s.takeBroadcast q).pending = s.pending ∧ (s.takeBroadcast q).link.state = s.link.state ∧
      (s.takeBroadcast q).link.cleanCount = s.link.cleanCount ∧ (s.takeBroadcast q).link.mode = s.link.mode ∧
      (s.takeBroadcast q).link.heldCount = s.link.heldCount ∧ (s.takeBroadcast q).link.bypassClosed = s.link.bypassClosed ∧
      (s.takeBroadcast q).link.draining = s.link.draining ∧ (s.takeBroadcast q).link.drainTa = s.link.drainTa ∧
      (s.takeBroadcast q).alert.noticeRun = s.alert.noticeRun := by
  unfold State.takeBroadcast
  repeat' split
  all_goals simp

@[simp] theorem State.judge_frame (d : DataRecord) (s : State) :
    (s.judge d).powered = s.powered ∧ (s.judge d).resetnHigh = s.resetnHigh ∧ (s.judge d).rate = s.rate ∧
      (s.judge d).dn = s.dn ∧ (s.judge d).framer = s.framer ∧ (s.judge d).link = s.link ∧ (s.judge d).position = s.position ∧
      (s.judge d).delay = s.delay ∧ (s.judge d).pending = s.pending ∧ (s.judge d).table.w0 = s.table.w0 ∧
      (s.judge d).table.w1 = s.table.w1 ∧ (s.judge d).alert.levels = s.alert.levels ∧
      (s.judge d).alert.threshold = s.alert.threshold ∧ (s.judge d).alert.noticeEnable = s.alert.noticeEnable ∧
      (s.judge d).alert.noticeRun = s.alert.noticeRun ∧ (s.judge d).op.fifo = s.op.fifo := by
  unfold State.judge
  repeat' split
  all_goals simp

@[simp] theorem State.reopenTrain_frame (s : State) :
    s.reopenTrain.powered = s.powered ∧ s.reopenTrain.resetnHigh = s.resetnHigh ∧ s.reopenTrain.rate = s.rate ∧
      s.reopenTrain.dn = s.dn ∧ s.reopenTrain.reaction = s.reaction ∧ s.reopenTrain.pending = s.pending ∧
      s.reopenTrain.framer.signal = s.framer.signal ∧ s.reopenTrain.framer.silence = s.framer.silence ∧
      s.reopenTrain.link.draining = s.link.draining ∧ s.reopenTrain.link.drainTa = s.link.drainTa ∧
      s.reopenTrain.table.w0 = s.table.w0 ∧ s.reopenTrain.table.w1 = s.table.w1 ∧
      s.reopenTrain.alert.levels = s.alert.levels ∧ s.reopenTrain.alert.threshold = s.alert.threshold ∧
      s.reopenTrain.alert.noticeEnable = s.alert.noticeEnable ∧ s.reopenTrain.op.fifo = s.op.fifo := by
  simp [State.reopenTrain]

@[simp] theorem State.limitBreak_frame (s : State) :
    s.limitBreak.powered = s.powered ∧ s.limitBreak.resetnHigh = s.resetnHigh ∧ s.limitBreak.rate = s.rate ∧
      s.limitBreak.dn = s.dn ∧ s.limitBreak.reaction = s.reaction ∧ s.limitBreak.pending = s.pending ∧
      s.limitBreak.framer.sequence = s.framer.sequence ∧ s.limitBreak.framer.signal = s.framer.signal ∧
      s.limitBreak.framer.silence = s.framer.silence ∧ s.limitBreak.link.draining = s.link.draining ∧
      s.limitBreak.link.drainTa = s.link.drainTa ∧ s.limitBreak.table.w0 = s.table.w0 ∧ s.limitBreak.table.w1 = s.table.w1 ∧
      s.limitBreak.alert.levels = s.alert.levels ∧ s.limitBreak.alert.threshold = s.alert.threshold ∧
      s.limitBreak.alert.noticeEnable = s.alert.noticeEnable ∧ s.limitBreak.op.fifo = s.op.fifo := by
  unfold State.limitBreak; split <;> simp

@[simp] theorem State.fallSilent_frame (s : State) :
    s.fallSilent.powered = s.powered ∧ s.fallSilent.resetnHigh = s.resetnHigh ∧ s.fallSilent.rate = s.rate ∧
      s.fallSilent.reaction = s.reaction ∧ s.fallSilent.pending = s.pending ∧
      s.fallSilent.framer.sequence = s.framer.sequence ∧ s.fallSilent.framer.trainFaulted = s.framer.trainFaulted ∧
      s.fallSilent.table.w0 = s.table.w0 ∧ s.fallSilent.table.w1 = s.table.w1 ∧ s.fallSilent.alert.levels = s.alert.levels ∧
      s.fallSilent.alert.threshold = s.alert.threshold ∧ s.fallSilent.alert.noticeEnable = s.alert.noticeEnable ∧
      s.fallSilent.op.fifo = s.op.fifo := by
  unfold State.fallSilent; dsimp only
  repeat' split
  all_goals simp

@[simp] theorem State.countSilence_frame (s : State) :
    s.countSilence.powered = s.powered ∧ s.countSilence.resetnHigh = s.resetnHigh ∧ s.countSilence.rate = s.rate ∧
      s.countSilence.dn = s.dn ∧ s.countSilence.reaction = s.reaction ∧ s.countSilence.pending = s.pending ∧
      s.countSilence.framer.sequence = s.framer.sequence ∧ s.countSilence.framer.trainFaulted = s.framer.trainFaulted ∧
      s.countSilence.table.w0 = s.table.w0 ∧ s.countSilence.table.w1 = s.table.w1 ∧
      s.countSilence.alert.levels = s.alert.levels ∧ s.countSilence.alert.threshold = s.alert.threshold ∧
      s.countSilence.alert.noticeEnable = s.alert.noticeEnable ∧ s.countSilence.op.fifo = s.op.fifo := by
  unfold State.countSilence
  repeat' split
  all_goals simp

@[simp] theorem State.completeRequest_frame (q : Request) (s : State) :
    (s.completeRequest q).powered = s.powered ∧ (s.completeRequest q).resetnHigh = s.resetnHigh ∧
      (s.completeRequest q).rate = s.rate ∧ (s.completeRequest q).dn = s.dn ∧ (s.completeRequest q).framer = s.framer ∧
      (s.completeRequest q).position = s.position ∧ (s.completeRequest q).pending = s.pending ∧
      (s.completeRequest q).link.state = s.link.state ∧ (s.completeRequest q).link.cleanCount = s.link.cleanCount ∧
      (s.completeRequest q).link.mode = s.link.mode ∧ (s.completeRequest q).link.heldCount = s.link.heldCount ∧
      (s.completeRequest q).link.bypassClosed = s.link.bypassClosed ∧ (s.completeRequest q).link.draining = s.link.draining ∧
      (s.completeRequest q).link.drainTa = s.link.drainTa ∧ (s.completeRequest q).alert.noticeRun = s.alert.noticeRun := by
  unfold State.completeRequest
  repeat' split
  all_goals simp

@[simp] theorem State.completeData_frame (d : DataRecord) (s : State) :
    (s.completeData d).powered = s.powered ∧ (s.completeData d).resetnHigh = s.resetnHigh ∧
      (s.completeData d).rate = s.rate ∧ (s.completeData d).dn = s.dn ∧ (s.completeData d).framer = s.framer ∧
      (s.completeData d).link = s.link ∧ (s.completeData d).position = s.position ∧ (s.completeData d).pending = s.pending ∧
      (s.completeData d).table.w0 = s.table.w0 ∧ (s.completeData d).table.w1 = s.table.w1 ∧
      (s.completeData d).alert.levels = s.alert.levels ∧ (s.completeData d).alert.threshold = s.alert.threshold ∧
      (s.completeData d).alert.noticeEnable = s.alert.noticeEnable ∧
      (s.completeData d).alert.noticeRun = s.alert.noticeRun := by
  unfold State.completeData; dsimp only
  repeat' split
  all_goals simp

@[simp] theorem State.takeUnexpected_frame (x : Symbol) (s : State) :
    (s.takeUnexpected x).powered = s.powered ∧ (s.takeUnexpected x).resetnHigh = s.resetnHigh ∧
      (s.takeUnexpected x).rate = s.rate ∧ (s.takeUnexpected x).dn = s.dn ∧ (s.takeUnexpected x).reaction = s.reaction ∧
      (s.takeUnexpected x).pending = s.pending ∧ (s.takeUnexpected x).framer.signal = s.framer.signal ∧
      (s.takeUnexpected x).framer.silence = s.framer.silence ∧ (s.takeUnexpected x).link.draining = s.link.draining ∧
      (s.takeUnexpected x).link.drainTa = s.link.drainTa ∧ (s.takeUnexpected x).table.w0 = s.table.w0 ∧
      (s.takeUnexpected x).table.w1 = s.table.w1 ∧ (s.takeUnexpected x).alert.levels = s.alert.levels ∧
      (s.takeUnexpected x).alert.threshold = s.alert.threshold ∧
      (s.takeUnexpected x).alert.noticeEnable = s.alert.noticeEnable ∧ (s.takeUnexpected x).op.fifo = s.op.fifo := by
  unfold State.takeUnexpected; split <;> simp

@[simp] theorem State.takeBody_frame (x : Symbol) (s : State) :
    (s.takeBody x).powered = s.powered ∧ (s.takeBody x).resetnHigh = s.resetnHigh ∧ (s.takeBody x).rate = s.rate ∧
      (s.takeBody x).dn = s.dn ∧ (s.takeBody x).reaction = s.reaction ∧ (s.takeBody x).pending = s.pending ∧
      (s.takeBody x).framer.signal = s.framer.signal ∧ (s.takeBody x).framer.silence = s.framer.silence ∧
      (s.takeBody x).link.draining = s.link.draining ∧ (s.takeBody x).link.drainTa = s.link.drainTa ∧
      (s.takeBody x).table.w0 = s.table.w0 ∧ (s.takeBody x).table.w1 = s.table.w1 ∧
      (s.takeBody x).alert.levels = s.alert.levels ∧ (s.takeBody x).alert.threshold = s.alert.threshold ∧
      (s.takeBody x).alert.noticeEnable = s.alert.noticeEnable ∧ (s.takeBody x).op.fifo = s.op.fifo := by
  unfold State.takeBody; split <;> simp

@[simp] theorem State.limitIfDue_frame (s : State) :
    s.limitIfDue.powered = s.powered ∧ s.limitIfDue.resetnHigh = s.resetnHigh ∧ s.limitIfDue.rate = s.rate ∧
      s.limitIfDue.dn = s.dn ∧ s.limitIfDue.reaction = s.reaction ∧ s.limitIfDue.pending = s.pending ∧
      s.limitIfDue.framer.sequence = s.framer.sequence ∧ s.limitIfDue.framer.signal = s.framer.signal ∧
      s.limitIfDue.framer.silence = s.framer.silence ∧ s.limitIfDue.link.draining = s.link.draining ∧
      s.limitIfDue.link.drainTa = s.link.drainTa ∧ s.limitIfDue.table.w0 = s.table.w0 ∧ s.limitIfDue.table.w1 = s.table.w1 ∧
      s.limitIfDue.alert.levels = s.alert.levels ∧ s.limitIfDue.alert.threshold = s.alert.threshold ∧
      s.limitIfDue.alert.noticeEnable = s.alert.noticeEnable ∧ s.limitIfDue.op.fifo = s.op.fifo := by
  unfold State.limitIfDue; split <;> simp

@[simp] theorem State.symbolTime_frame (s : State) :
    s.symbolTime.powered = s.powered ∧ s.symbolTime.resetnHigh = s.resetnHigh ∧ s.symbolTime.rate = s.rate ∧
      s.symbolTime.reaction = s.reaction ∧ s.symbolTime.pending = s.pending ∧
      s.symbolTime.framer.sequence = s.framer.sequence ∧ s.symbolTime.framer.trainFaulted = s.framer.trainFaulted ∧
      s.symbolTime.table.w0 = s.table.w0 ∧ s.symbolTime.table.w1 = s.table.w1 ∧ s.symbolTime.alert.levels = s.alert.levels ∧
      s.symbolTime.alert.threshold = s.alert.threshold ∧ s.symbolTime.alert.noticeEnable = s.alert.noticeEnable ∧
      s.symbolTime.op.fifo = s.op.fifo := by
  unfold State.symbolTime
  repeat' split
  all_goals simp

@[simp] theorem State.takeHeader_frame (n : Nat) (x : Symbol) (s : State) :
    (s.takeHeader n x).powered = s.powered ∧ (s.takeHeader n x).resetnHigh = s.resetnHigh ∧
      (s.takeHeader n x).rate = s.rate ∧ (s.takeHeader n x).dn = s.dn ∧ (s.takeHeader n x).reaction = s.reaction ∧
      (s.takeHeader n x).pending = s.pending ∧ (s.takeHeader n x).framer.signal = s.framer.signal ∧
      (s.takeHeader n x).framer.silence = s.framer.silence ∧ (s.takeHeader n x).link.draining = s.link.draining ∧
      (s.takeHeader n x).link.drainTa = s.link.drainTa ∧ (s.takeHeader n x).table.w0 = s.table.w0 ∧
      (s.takeHeader n x).table.w1 = s.table.w1 ∧ (s.takeHeader n x).alert.levels = s.alert.levels ∧
      (s.takeHeader n x).alert.threshold = s.alert.threshold ∧ (s.takeHeader n x).alert.noticeEnable = s.alert.noticeEnable ∧
      (s.takeHeader n x).op.fifo = s.op.fifo := by
  unfold State.takeHeader; split <;> simp

@[simp] theorem State.takeStatus_frame (n : Nat) (x : Symbol) (s : State) :
    (s.takeStatus n x).powered = s.powered ∧ (s.takeStatus n x).resetnHigh = s.resetnHigh ∧
      (s.takeStatus n x).rate = s.rate ∧ (s.takeStatus n x).dn = s.dn ∧ (s.takeStatus n x).reaction = s.reaction ∧
      (s.takeStatus n x).pending = s.pending ∧ (s.takeStatus n x).framer.signal = s.framer.signal ∧
      (s.takeStatus n x).framer.silence = s.framer.silence ∧ (s.takeStatus n x).link.draining = s.link.draining ∧
      (s.takeStatus n x).link.drainTa = s.link.drainTa ∧ (s.takeStatus n x).table.w0 = s.table.w0 ∧
      (s.takeStatus n x).table.w1 = s.table.w1 ∧ (s.takeStatus n x).alert.levels = s.alert.levels ∧
      (s.takeStatus n x).alert.threshold = s.alert.threshold ∧ (s.takeStatus n x).alert.noticeEnable = s.alert.noticeEnable ∧
      (s.takeStatus n x).op.fifo = s.op.fifo := by
  unfold State.takeStatus; split <;> simp

@[simp] theorem State.takeSkip_frame (x : Symbol) (s : State) :
    (s.takeSkip x).powered = s.powered ∧ (s.takeSkip x).resetnHigh = s.resetnHigh ∧ (s.takeSkip x).rate = s.rate ∧
      (s.takeSkip x).dn = s.dn ∧ (s.takeSkip x).reaction = s.reaction ∧ (s.takeSkip x).pending = s.pending ∧
      (s.takeSkip x).framer.signal = s.framer.signal ∧ (s.takeSkip x).framer.silence = s.framer.silence ∧
      (s.takeSkip x).link.draining = s.link.draining ∧ (s.takeSkip x).link.drainTa = s.link.drainTa ∧
      (s.takeSkip x).table.w0 = s.table.w0 ∧ (s.takeSkip x).table.w1 = s.table.w1 ∧
      (s.takeSkip x).alert.levels = s.alert.levels ∧ (s.takeSkip x).alert.threshold = s.alert.threshold ∧
      (s.takeSkip x).alert.noticeEnable = s.alert.noticeEnable ∧ (s.takeSkip x).op.fifo = s.op.fifo := by
  unfold State.takeSkip; split <;> simp

@[simp] theorem State.takeUnread_frame (x : Symbol) (s : State) :
    (s.takeUnread x).powered = s.powered ∧ (s.takeUnread x).resetnHigh = s.resetnHigh ∧ (s.takeUnread x).rate = s.rate ∧
      (s.takeUnread x).dn = s.dn ∧ (s.takeUnread x).reaction = s.reaction ∧ (s.takeUnread x).pending = s.pending ∧
      (s.takeUnread x).framer.signal = s.framer.signal ∧ (s.takeUnread x).framer.silence = s.framer.silence ∧
      (s.takeUnread x).link.draining = s.link.draining ∧ (s.takeUnread x).link.drainTa = s.link.drainTa ∧
      (s.takeUnread x).table.w0 = s.table.w0 ∧ (s.takeUnread x).table.w1 = s.table.w1 ∧
      (s.takeUnread x).alert.levels = s.alert.levels ∧ (s.takeUnread x).alert.threshold = s.alert.threshold ∧
      (s.takeUnread x).alert.noticeEnable = s.alert.noticeEnable ∧ (s.takeUnread x).op.fifo = s.op.fifo := by
  unfold State.takeUnread
  repeat' split
  all_goals simp

@[simp] theorem State.deliver_frame (r : RecordProgress) (s : State) :
    (s.deliver r).powered = s.powered ∧ (s.deliver r).resetnHigh = s.resetnHigh ∧ (s.deliver r).rate = s.rate ∧
      (s.deliver r).dn = s.dn ∧ (s.deliver r).framer = s.framer ∧ (s.deliver r).position = s.position ∧
      (s.deliver r).pending = s.pending ∧ (s.deliver r).link.state = s.link.state ∧
      (s.deliver r).link.cleanCount = s.link.cleanCount ∧ (s.deliver r).link.mode = s.link.mode ∧
      (s.deliver r).link.heldCount = s.link.heldCount ∧ (s.deliver r).link.bypassClosed = s.link.bypassClosed ∧
      (s.deliver r).link.draining = s.link.draining ∧ (s.deliver r).link.drainTa = s.link.drainTa ∧
      (s.deliver r).alert.noticeRun = s.alert.noticeRun := by
  unfold State.deliver; split <;> simp

@[simp] theorem State.finishRecord_frame (r : RecordProgress) (s : State) :
    (s.finishRecord r).powered = s.powered ∧ (s.finishRecord r).resetnHigh = s.resetnHigh ∧
      (s.finishRecord r).rate = s.rate ∧ (s.finishRecord r).dn = s.dn ∧ (s.finishRecord r).position = s.position ∧
      (s.finishRecord r).pending = s.pending ∧ (s.finishRecord r).framer.slotCount = s.framer.slotCount ∧
      (s.finishRecord r).framer.flags = s.framer.flags ∧ (s.finishRecord r).framer.sequence = s.framer.sequence ∧
      (s.finishRecord r).framer.statusBytes = s.framer.statusBytes ∧
      (s.finishRecord r).framer.symbolCount = s.framer.symbolCount ∧
      (s.finishRecord r).framer.strayReported = s.framer.strayReported ∧ (s.finishRecord r).framer.signal = s.framer.signal ∧
      (s.finishRecord r).framer.silence = s.framer.silence ∧ (s.finishRecord r).link.state = s.link.state ∧
      (s.finishRecord r).link.cleanCount = s.link.cleanCount ∧ (s.finishRecord r).link.mode = s.link.mode ∧
      (s.finishRecord r).link.heldCount = s.link.heldCount ∧ (s.finishRecord r).link.bypassClosed = s.link.bypassClosed ∧
      (s.finishRecord r).link.draining = s.link.draining ∧ (s.finishRecord r).link.drainTa = s.link.drainTa ∧
      (s.finishRecord r).alert.noticeRun = s.alert.noticeRun := by
  unfold State.finishRecord; split <;> simp

@[simp] theorem State.takeRecordByte_frame (r : RecordProgress) (b : Byte) (e : Bool) (s : State) :
    (s.takeRecordByte r b e).powered = s.powered ∧ (s.takeRecordByte r b e).resetnHigh = s.resetnHigh ∧
      (s.takeRecordByte r b e).rate = s.rate ∧ (s.takeRecordByte r b e).dn = s.dn ∧
      (s.takeRecordByte r b e).position = s.position ∧ (s.takeRecordByte r b e).pending = s.pending ∧
      (s.takeRecordByte r b e).framer.slotCount = s.framer.slotCount ∧
      (s.takeRecordByte r b e).framer.flags = s.framer.flags ∧ (s.takeRecordByte r b e).framer.sequence = s.framer.sequence ∧
      (s.takeRecordByte r b e).framer.statusBytes = s.framer.statusBytes ∧
      (s.takeRecordByte r b e).framer.symbolCount = s.framer.symbolCount ∧
      (s.takeRecordByte r b e).framer.strayReported = s.framer.strayReported ∧
      (s.takeRecordByte r b e).framer.signal = s.framer.signal ∧ (s.takeRecordByte r b e).framer.silence = s.framer.silence ∧
      (s.takeRecordByte r b e).link.state = s.link.state ∧ (s.takeRecordByte r b e).link.cleanCount = s.link.cleanCount ∧
      (s.takeRecordByte r b e).link.mode = s.link.mode ∧ (s.takeRecordByte r b e).link.heldCount = s.link.heldCount ∧
      (s.takeRecordByte r b e).link.bypassClosed = s.link.bypassClosed ∧
      (s.takeRecordByte r b e).link.draining = s.link.draining ∧ (s.takeRecordByte r b e).link.drainTa = s.link.drainTa := by
  unfold State.takeRecordByte; dsimp only
  repeat' split
  all_goals simp

@[simp] theorem State.takeRecord_frame (r : RecordProgress) (x : Symbol) (s : State) :
    (s.takeRecord r x).powered = s.powered ∧ (s.takeRecord r x).resetnHigh = s.resetnHigh ∧
      (s.takeRecord r x).rate = s.rate ∧ (s.takeRecord r x).dn = s.dn ∧ (s.takeRecord r x).pending = s.pending ∧
      (s.takeRecord r x).framer.signal = s.framer.signal ∧ (s.takeRecord r x).framer.silence = s.framer.silence ∧
      (s.takeRecord r x).link.draining = s.link.draining ∧ (s.takeRecord r x).link.drainTa = s.link.drainTa := by
  unfold State.takeRecord; split <;> simp

@[simp] theorem State.takeSymbol_frame (x : Symbol) (s : State) :
    (s.takeSymbol x).powered = s.powered ∧ (s.takeSymbol x).resetnHigh = s.resetnHigh ∧ (s.takeSymbol x).rate = s.rate ∧
      (s.takeSymbol x).dn = s.dn ∧ (s.takeSymbol x).pending = s.pending ∧ (s.takeSymbol x).framer.signal = s.framer.signal ∧
      (s.takeSymbol x).framer.silence = s.framer.silence ∧ (s.takeSymbol x).link.draining = s.link.draining ∧
      (s.takeSymbol x).link.drainTa = s.link.drainTa := by
  unfold State.takeSymbol; split <;> simp

@[simp] theorem State.takeArrival_frame (x : LineSymbol) (s : State) :
    (s.takeArrival x).powered = s.powered ∧ (s.takeArrival x).resetnHigh = s.resetnHigh ∧ (s.takeArrival x).rate = s.rate ∧
      (s.takeArrival x).pending = s.pending ∧ (s.takeArrival x).link.draining = s.link.draining ∧
      (s.takeArrival x).link.drainTa = s.link.drainTa := by
  simp [State.takeArrival]

@[simp] theorem State.hearSymbol_frame (x : LineSymbol) (s : State) :
    (s.hearSymbol x).powered = s.powered ∧ (s.hearSymbol x).resetnHigh = s.resetnHigh ∧ (s.hearSymbol x).rate = s.rate ∧
      (s.hearSymbol x).pending = s.pending ∧ (s.hearSymbol x).link.draining = s.link.draining ∧
      (s.hearSymbol x).link.drainTa = s.link.drainTa := by
  simp [State.hearSymbol]

@[simp] theorem State.arrive_frame (x : LineSymbol) (s : State) :
    (s.arrive x).powered = s.powered ∧ (s.arrive x).resetnHigh = s.resetnHigh ∧ (s.arrive x).rate = s.rate ∧
      (s.arrive x).pending = s.pending ∧ (s.arrive x).link.draining = s.link.draining ∧
      (s.arrive x).link.drainTa = s.link.drainTa := by
  unfold State.arrive; split <;> simp

@[simp] theorem State.occur_frame (o : Occasion) (s : State) :
    (s.occur o).powered = s.powered ∧ (s.occur o).resetnHigh = s.resetnHigh ∧ (s.occur o).rate = s.rate ∧
      (s.occur o).pending = s.pending := by
  unfold State.occur; split <;> simp

end Sys2Proof.Machine
end

