-- ==== Sys2Proof/Laws/Record.lean ====
section
/-! SUPPORT. A record's symbols arriving one after another in a train with room for them: the part comes to the record's completion with
the record in the newest places, and the block that owns the record takes it. -/

namespace Sys2Proof.Machine

/-! ### The wire form -/

@[simp] theorem wordBytes_length (w : Word) : (wordBytes w).length = 2 := rfl

theorem wordOf_bytes (w : Word) : wordOf (highByte w) (lowByte w) = w := by
  apply BitVec.eq_of_getLsbD_eq
  intro i hi
  simp only [wordOf, highByte, lowByte, BitVec.getLsbD_append, BitVec.getLsbD_extractLsb']
  split
  · simp [*]
  · have : i - 8 < 8 := by omega
    simp [this, show 8 + (i - 8) = i by omega]

theorem byteOf_toNat {n : Nat} (h : n < 256) : (byteOf n).toNat = n := by
  simp [byteOf, Nat.mod_eq_of_lt h]

theorem byteOf_byte (b : Byte) : byteOf b.toNat = b := by simp [byteOf]

@[simp] theorem WireRecord.covered_length (r : WireRecord) : r.covered.length = r.payload.length + 4 := by
  simp [WireRecord.covered]

@[simp] theorem WireRecord.bytes_length (r : WireRecord) : r.bytes.length = r.payload.length + 6 := by
  simp [WireRecord.bytes]

@[simp] theorem WireRecord.symbols_length (r : WireRecord) : r.symbols.length = r.payload.length + 7 := by
  simp [WireRecord.symbols]

/-! ### The Delay Line under arrivals -/

/-- A full Delay Line after symbols have entered it: they hold the newest places. -/
def pushed (xs delay : List Symbol) : List Symbol := xs.reverse ++ delay.take (Config.delayPlaces - xs.length)

/-- What has left by then, oldest first. -/
def left (xs delay : List Symbol) : List LineSymbol :=
  (delay.drop (Config.delayPlaces - xs.length)).reverse.map .readable

theorem pushed_length {xs delay : List Symbol} (hd : delay.length = 64) (hx : xs.length ≤ 64) :
    (pushed xs delay).length = 64 := by
  simp [pushed, Config.delayPlaces, hd]; omega

/-- The held symbols but for the oldest, and the oldest. -/
theorem pushed_split {xs delay : List Symbol} (hd : delay.length = 64) (hx : xs.length < 64) :
    ∃ (k : Nat) (h : k < delay.length), 64 - xs.length = k + 1 ∧ pushed xs delay = (xs.reverse ++ delay.take k) ++ [delay[k]] := by
  have hlt : 63 - xs.length < delay.length := by omega
  refine ⟨63 - xs.length, hlt, by omega, ?_⟩
  rw [List.append_assoc, List.take_append_getElem hlt, pushed, Config.delayPlaces]
  congr 2; omega

theorem pushed_snoc {xs delay : List Symbol} {x : Symbol} (hd : delay.length = 64) (hx : xs.length < 64) :
    pushed (xs ++ [x]) delay = x :: (pushed xs delay).dropLast := by
  obtain ⟨k, _, hk, h⟩ := pushed_split hd hx
  rw [h, List.dropLast_concat, pushed, Config.delayPlaces, List.length_append, List.length_singleton,
    show 64 - (xs.length + 1) = k by omega]
  simp

theorem left_snoc {xs delay : List Symbol} {x : Symbol} (hd : delay.length = 64) (hx : xs.length < 64) :
    left (xs ++ [x]) delay = left xs delay ++ ((pushed xs delay).getLast?.map LineSymbol.readable).toList := by
  obtain ⟨k, hlt, hk, h⟩ := pushed_split hd hx
  rw [h, List.getLast?_concat, left, left, Config.delayPlaces, List.length_append, List.length_singleton,
    show 64 - (xs.length + 1) = k by omega, hk, List.drop_eq_getElem_cons hlt,
    List.reverse_cons, List.map_append]
  rfl

/-! ### One arrival inside a record -/

/-- The part after symbols have arrived inside a train in the path, the Framer standing at a position. -/
def State.within (p : ParsePosition) (xs : List Symbol) (s : State) : State :=
  { s with
    dn := s.dn ++ left xs s.delay
    delay := pushed xs s.delay
    framer := { s.framer with
      position := p, symbolCount := s.framer.symbolCount + xs.length, signal := .present, silence := 0 }
    alert := { s.alert with noticeRun := 0 } }

/-- An arrival that leaves the train open below its limit is the Framer's taking of the symbol and nothing after it. -/
theorem State.arrive_open {x : LineSymbol} {s t u : State} (hr : s.running = true)
    (hu : { (s.moveLine x) with framer := s.framer.hear } = u) (ht : u.takeSymbol x.taken = t)
    (hto : t.framer.position ≠ .outside) (htc : t.framer.symbolCount < Config.trainLimit) : s.arrive x = t := by
  have hopen : t.framer.trainOpen = true := by
    unfold Framer.trainOpen; split <;> simp_all
  have hlim : t.limitIfDue = t := by
    unfold State.limitIfDue; rw [if_neg]; simp; intro; omega
  have hleave : t.leaveIfDue = t := by
    unfold State.leaveIfDue State.leaveDue; simp [hopen]
  subst hu
  show (if s.running = true then s.hearSymbol x else s.emit [x]) = t
  rw [if_pos hr]
  show ((State.takeSymbol x.taken _).limitIfDue).leaveIfDue = t
  rw [ht, hlim, hleave]

/-- The Delay Line's and the counters' part of an arrival inside a train in the path. -/
theorem State.move_within {p : ParsePosition} {xs : List Symbol} {s : State} (x : Symbol) (hi : s.inPath = true)
    (hdr : s.link.draining = false) (hd : s.delay.length = Config.delayPlaces) (hx : xs.length < 64) (hp : p ≠ .outside) :
    { ((s.within p xs).moveLine (.readable x)) with framer := (s.within p xs).framer.hear } = s.within p (xs ++ [x]) := by
  have h1 : (s.within p xs).link.draining = false := hdr
  have h2 : (s.within p xs).inPath = true := hi
  have h3 : (s.within p xs).framer.trainOpen = true := by
    unfold Framer.trainOpen; split <;> simp_all [State.within]
  simp only [State.moveLine, h1, h2, Framer.hear, h3]
  simp [State.within, pushed_snoc hd hx, left_snoc hd hx,
    LineSymbol.taken, Nat.add_assoc]

/-- An arrival inside a train in the path, below the train's limit. -/
theorem State.arrive_within {n : Nat} {p : ParsePosition} {xs : List Symbol} {s : State} (x : Symbol) (t : State)
    (h : s.readyFor n) (hx : xs.length < n) (hn : n ≤ 64) (hp : p ≠ .outside)
    (ht : (s.within p (xs ++ [x])).takeSymbol x = t) (hto : t.framer.position ≠ .outside)
    (hts : t.framer.symbolCount = s.framer.symbolCount + (xs.length + 1)) :
    (s.within p xs).arrive (.readable x) = t :=
  State.arrive_open (x := .readable x) h.1 (State.move_within x h.2.1 h.2.2.1 h.2.2.2.2.1 (by omega) hp) ht hto
    (by have := h.2.2.2.2.2; omega)

@[simp] theorem State.within_frame (p : ParsePosition) (xs : List Symbol) (s : State) :
    (s.within p xs).framer.position = p ∧ (s.within p xs).framer.symbolCount = s.framer.symbolCount + xs.length :=
  ⟨rfl, rfl⟩

/-! ### The record in progress -/

/-- A record of which the mark and some of the covered bytes have been taken. -/
def WireRecord.progress (r : WireRecord) (bytes : List Byte) : RecordProgress :=
  { kind := r.kind, bytes := bytes, check := checkOf (bytes.take (r.payload.length + 4)), errSeen := false }

theorem WireRecord.progress_length {r : WireRecord} (hL : r.payload.length ≤ Config.maxPayload) (bs : List Byte) :
    (r.progress (byteOf r.payload.length :: bs)).length = r.payload.length := by
  simp only [progress, RecordProgress.length, List.getD_cons_zero]
  exact byteOf_toNat (by unfold Config.maxPayload at hL; omega)

theorem WireRecord.progress_take {r : WireRecord} (hL : r.payload.length ≤ Config.maxPayload) (bs : List Byte) (b : Byte) :
    (r.progress (byteOf r.payload.length :: bs)).take b false = r.progress (byteOf r.payload.length :: (bs ++ [b])) := by
  have hl := WireRecord.progress_length hL bs
  have hlen : (r.progress (byteOf r.payload.length :: bs)).bytes.length = bs.length + 1 := rfl
  unfold RecordProgress.take
  rw [hl, hlen]
  generalize byteOf r.payload.length = l
  by_cases h : bs.length + 1 < r.payload.length + 4
  · have h1 : (l :: bs).take (r.payload.length + 4) = l :: bs := List.take_of_length_le (by simp; omega)
    have h2 : (l :: (bs ++ [b])).take (r.payload.length + 4) = (l :: bs) ++ [b] :=
      List.take_of_length_le (by simp; omega)
    rw [if_pos h]
    simp only [progress, h1, h2, checkOf, List.foldl_append, Bool.or_false]
    rfl
  · have h1 : (l :: (bs ++ [b])).take (r.payload.length + 4) = (l :: bs).take (r.payload.length + 4) := by
      rw [← List.cons_append, List.take_append_of_le_length (by simp; omega)]
    rw [if_neg h]
    simp only [progress, h1, Bool.or_false]
    rfl

theorem WireRecord.progress_valid {r : WireRecord} (hL : r.payload.length ≤ Config.maxPayload) :
    (r.progress r.bytes).valid = true ∧ (r.progress r.bytes).check = checkOf r.covered := by
  have hl : (r.progress r.bytes).length = r.payload.length := WireRecord.progress_length hL _
  have hc : (r.progress r.bytes).check = checkOf r.covered := by
    simp only [progress, bytes]
    rw [List.take_append_of_le_length (by simp), List.take_of_length_le (by simp)]
  refine ⟨?_, hc⟩
  unfold RecordProgress.valid RecordProgress.receivedCheck
  rw [hl, hc]
  have h1 : r.bytes.getD (r.payload.length + 4) 0#8 = highByte (checkOf r.covered) := by
    simp [bytes, wordBytes]
  have h2 : r.bytes.getD (r.payload.length + 5) 0#8 = lowByte (checkOf r.covered) := by
    simp [bytes, wordBytes]
  simp only [progress, h1, h2, wordOf_bytes]
  simp

/-- The payload of a completed record, and its fixed bytes. -/
theorem WireRecord.progress_fields {r : WireRecord} (hL : r.payload.length ≤ Config.maxPayload) :
    (r.progress r.bytes).payload = r.payload ∧ (r.progress r.bytes).fixedByte 1 = r.fixed1 ∧
      (r.progress r.bytes).fixedByte 2 = r.fixed2 ∧ (r.progress r.bytes).fixedByte 3 = r.fixed3 := by
  have hl : (r.progress r.bytes).length = r.payload.length := WireRecord.progress_length hL _
  refine ⟨?_, rfl, rfl, rfl⟩
  unfold RecordProgress.payload
  rw [hl]
  simp [progress, bytes, covered]

/-! ### The record's symbols -/

/-- The bytes of a record but for the last arrive after its mark and length. -/
theorem State.arriveAll_bytes {n : Nat} {r : WireRecord} {s : State} (h : s.readyFor n)
    (hn : n ≤ 64) (hL : r.payload.length ≤ Config.maxPayload) (bs : List Byte) :
    ∀ (done : List Byte) (xs : List Symbol), xs.length + bs.length ≤ n → done.length + bs.length < r.payload.length + 5 →
      (s.within (.record (r.progress (byteOf r.payload.length :: done))) xs).arriveAll (bs.map fun b => .readable (.data b)) =
        s.within (.record (r.progress (byteOf r.payload.length :: (done ++ bs)))) (xs ++ bs.map .data) := by
  induction bs with
  | nil => intro done xs _ _; simp [State.arriveAll]
  | cons b bs ih =>
    intro done xs hx hd
    simp only [List.length_cons] at hx hd
    have hlen := WireRecord.progress_length hL done
    have hlen' := WireRecord.progress_length hL (done ++ [b])
    have step : (s.within (.record (r.progress (byteOf r.payload.length :: done))) xs).arrive (.readable (.data b)) =
        s.within (.record (r.progress (byteOf r.payload.length :: (done ++ [b])))) (xs ++ [.data b]) := by
      refine State.arrive_within (.data b) _ h (by omega) hn (by simp) ?_ (by simp) (by simp)
      simp only [State.takeSymbol, State.within_frame, State.takeRecord, State.takeRecordByte, WireRecord.progress_take hL,
        hlen']
      rw [if_neg (by simp [WireRecord.progress]), if_neg (by simp [WireRecord.progress]; omega)]
      rfl
    rw [List.map_cons, State.arriveAll, step, ih (done ++ [b]) _ (by simp; omega) (by simp; omega)]
    simp

theorem State.arriveAll_append (xs ys : List LineSymbol) (s : State) :
    s.arriveAll (xs ++ ys) = (s.arriveAll xs).arriveAll ys := by
  induction xs generalizing s with
  | nil => rfl
  | cons x xs ih => simp [State.arriveAll, ih]

/-- The mark of a record opens it. -/
theorem State.arrive_mark {n : Nat} {r : WireRecord} {s : State} (h : s.readyFor n) (hn : 0 < n) (hn' : n ≤ 64) :
    s.arrive (.readable r.kind.mark) = s.within (.record (r.progress [])) [r.kind.mark] := by
  obtain ⟨hr, hi, hdr, hpos, hd, hc⟩ := h
  have hto : s.framer.trainOpen = true := by unfold Framer.trainOpen; rw [hpos]
  refine State.arrive_open (u := { s.within .body [r.kind.mark] with alert := s.alert }) hr ?_ ?_ (by simp) (by simp; omega)
  · have hd64 : s.delay.length ≤ 64 := Nat.le_of_eq hd
    have h1 := pushed_snoc (xs := []) (x := r.kind.mark) hd (by simp)
    have h2 := left_snoc (xs := []) (x := r.kind.mark) hd (by simp)
    have h3 : pushed [] s.delay = s.delay := by simp [pushed, Config.delayPlaces, hd64]
    have h4 : left [] s.delay = [] := by simp [left, Config.delayPlaces, hd64]
    rw [h3, List.nil_append] at h1 h2
    rw [h4, List.nil_append] at h2
    simp only [State.moveLine, hdr, hi, Framer.hear, hto, State.within, h1, h2]
    simp [LineSymbol.taken, hpos]
  · simp only [State.takeSymbol, State.within_frame, LineSymbol.taken]
    cases hk : r.kind <;> simp [RecordKind.mark, State.takeBody, State.openRecord, WireRecord.progress, hk] <;> rfl

/-- The last symbol of a record is its completion; the train's limit and a leave are looked at after it. -/
theorem State.arrive_last {n : Nat} {r : WireRecord} {s : State} (h : s.readyFor n) (hn : n < 64)
    (hL : r.payload.length ≤ Config.maxPayload) (xs : List Symbol) (hx : xs.length ≤ n) (bs : List Byte) (b : Byte)
    (hb : byteOf r.payload.length :: (bs ++ [b]) = r.bytes) :
    (s.within (.record (r.progress (byteOf r.payload.length :: bs))) xs).arrive (.readable (.data b)) =
      ((s.within .body (xs ++ [.data b])).deliver (r.progress r.bytes)).limitIfDue.leaveIfDue := by
  have hlen := WireRecord.progress_length hL (bs ++ [b])
  have hbl : bs.length = r.payload.length + 4 := by
    have := congrArg List.length hb; simp at this; omega
  have hmove := State.move_within (p := .record (r.progress (byteOf r.payload.length :: bs))) (.data b) h.2.1 h.2.2.1
    h.2.2.2.2.1 (by omega : xs.length < 64) (by simp)
  show (if (s.within _ xs).running = true then State.hearSymbol _ _ else _) = _
  rw [if_pos (show (s.within _ xs).running = true from h.1)]
  unfold State.hearSymbol State.takeArrival
  rw [hmove]
  simp only [LineSymbol.taken, State.takeSymbol, State.within_frame, State.takeRecord, State.takeRecordByte,
    WireRecord.progress_take hL, hlen]
  rw [if_neg (by simp [WireRecord.progress]), if_pos (by simp [WireRecord.progress, hbl]), hb]
  simp only [State.finishRecord, (WireRecord.progress_valid hL).1, if_true]
  rfl

/-- The arrival of a whole record in a train with room for all but its last symbol comes to its completion, and the train's
limit is looked at after it (R9, R17, R18, R21). -/
theorem State.arriveRecord_upTo {r : WireRecord} {s : State} (h : s.readyFor (r.payload.length + 6))
    (hL : r.payload.length ≤ Config.maxPayload) :
    s.quiet.arriveRecord r = ((s.afterRecord r).deliver (r.progress r.bytes)).limitIfDue.leaveIfDue := by
  have hq : s.quiet.readyFor (r.payload.length + 6) := h
  have hn : r.payload.length + 6 < 64 := by unfold Config.maxPayload at hL; omega
  obtain ⟨bs, b, hb⟩ : ∃ (bs : List Byte) (b : Byte), byteOf r.payload.length :: (bs ++ [b]) = r.bytes :=
    ⟨r.fixed1 :: r.fixed2 :: r.fixed3 :: (r.payload ++ [highByte (checkOf r.covered)]), lowByte (checkOf r.covered), by
      simp [WireRecord.bytes, WireRecord.covered, wordBytes]⟩
  have hbl : bs.length = r.payload.length + 4 := by
    have := congrArg List.length hb; simp at this; omega
  have hsym : r.symbols.map LineSymbol.readable =
      .readable r.kind.mark :: .readable (.data (byteOf r.payload.length)) ::
        (bs.map (fun b => .readable (.data b)) ++ [.readable (.data b)]) := by
    simp [WireRecord.symbols, ← hb]
  have hlen0 : (s.quiet.within (.record (r.progress [])) [r.kind.mark]).arrive (.readable (.data (byteOf r.payload.length))) =
      s.quiet.within (.record (r.progress [byteOf r.payload.length])) [r.kind.mark, .data (byteOf r.payload.length)] := by
    refine State.arrive_within _ _ hq (by simp) (by omega) (by simp) ?_ (by simp) (by simp)
    have hle : ¬ Config.maxPayload < (byteOf r.payload.length).toNat := by
      rw [byteOf_toNat (by unfold Config.maxPayload at hL; omega)]; omega
    simp only [State.takeSymbol, State.within_frame, State.takeRecord, State.takeRecordByte]
    rw [if_pos (by simp [WireRecord.progress])]
    simp only [State.takeLength, hle]
    simp [WireRecord.progress, checkOf]
    rfl
  unfold State.arriveRecord
  rw [hsym, State.arriveAll, State.arrive_mark hq (by simp) (by omega), State.arriveAll, hlen0, State.arriveAll_append,
    State.arriveAll_bytes hq (by omega) hL bs [] _ (by simp [hbl]; omega) (by simp [hbl])]
  simp only [State.arriveAll, List.nil_append]
  rw [State.arrive_last hq hn hL _ (by simp [hbl]) bs b hb]
  congr 3
  have hx : [r.kind.mark, .data (byteOf r.payload.length)] ++ bs.map .data ++ [.data b] = r.symbols := by
    simp [WireRecord.symbols, ← hb]
  rw [hx]
  simp only [State.within, State.afterRecord, left, pushed, State.quiet, ← h.2.2.2.1, List.nil_append]

/-- What a completion delivers leaves the train open at its count. -/
theorem State.deliver_open {r : RecordProgress} {s : State} :
    (s.deliver r).framer = s.framer := by
  unfold State.deliver; split <;> simp

/-- The arrival of a whole record in a train with room for it comes to its completion, and to nothing after it (R9, R17, R18). -/
theorem State.arriveRecord_ready {r : WireRecord} {s : State} (h : s.readyFor r.symbols.length)
    (hL : r.payload.length ≤ Config.maxPayload) :
    s.quiet.arriveRecord r = (s.afterRecord r).deliver (r.progress r.bytes) := by
  rw [State.arriveRecord_upTo ⟨h.1, h.2.1, h.2.2.1, h.2.2.2.1, h.2.2.2.2.1, by have := h.2.2.2.2.2; simp at this; omega⟩ hL]
  have hopen : ((s.afterRecord r).deliver (r.progress r.bytes)).framer.trainOpen = true := by
    rw [State.deliver_open]; show Framer.trainOpen _ = true; unfold Framer.trainOpen State.afterRecord; simp [h.2.2.2.1]
  have hcount : ¬ ((s.afterRecord r).deliver (r.progress r.bytes)).framer.symbolCount = Config.trainLimit := by
    rw [State.deliver_open]; show ¬ s.framer.symbolCount + r.symbols.length = _; have := h.2.2.2.2.2; omega
  rw [State.limitIfDue, if_neg (by rw [Bool.and_eq_true, decide_eq_true_eq]; exact fun hc => hcount hc.2), State.leaveIfDue,
    if_neg (by unfold State.leaveDue; rw [hopen]; simp)]

end Sys2Proof.Machine
end

