-- ==== Sys2Proof/Laws/Requests.lean ====
section
/-! SUPPORT. A request at its completion: taken, ignored or passed, and answered by the response to its code and operands. -/

namespace Sys2Proof.Machine

/-- The fields of a request as its completion delivers them. -/
theorem Request.progress_request {q : Request} (hL : q.operands.length ≤ Config.maxPayload) :
    (q.wire.progress q.wire.bytes).request = q := by
  obtain ⟨h1, h2, h3, h4⟩ := WireRecord.progress_fields (r := q.wire) hL
  unfold RecordProgress.request
  rw [h1, h2, h3, h4]
  rfl

/-- A data record's fields as its completion delivers them. -/
theorem DataRecord.progress_dataRecord {d : DataRecord} (hL : d.payload.length ≤ Config.maxPayload) :
    (d.wire.progress d.wire.bytes).dataRecord = d := by
  obtain ⟨h1, h2, h3, h4⟩ := WireRecord.progress_fields (r := d.wire) hL
  unfold RecordProgress.dataRecord
  rw [h1, h2, h3, h4]
  rfl

/-- A request that arrives whole comes to its completion at the Request Engine. -/
theorem State.arriveRequest_ready {q : Request} {s : State} (h : s.readyFor (q.operands.length + 7))
    (hL : q.operands.length ≤ Config.maxPayload) :
    s.arriveRequest q = (s.afterRecord q.wire).completeRequest q := by
  have := State.arriveRecord_ready (r := q.wire) (s := s) (by simpa [Request.wire] using h) hL
  unfold State.arriveRequest
  rw [this]
  show State.completeRequest (q.wire.progress q.wire.bytes).request _ = _
  rw [Request.progress_request hL]

/-- A data record that arrives whole comes to its completion. -/
theorem State.arriveData_ready {d : DataRecord} {s : State} (h : s.readyFor (d.payload.length + 7))
    (hL : d.payload.length ≤ Config.maxPayload) :
    s.quiet.arriveRecord d.wire = (s.afterRecord d.wire).completeData d := by
  have := State.arriveRecord_ready (r := d.wire) (s := s) (by simpa [DataRecord.wire] using h) hL
  rw [this]
  show State.completeData (d.wire.progress d.wire.bytes).dataRecord _ = _
  rw [DataRecord.progress_dataRecord hL]

/-- The same, when the completion may be the 2048th symbol of its train: the train's limit is looked at after it. -/
theorem State.arriveRequest_upTo {q : Request} {s : State} (h : s.readyFor (q.operands.length + 6))
    (hL : q.operands.length ≤ Config.maxPayload) :
    s.arriveRequest q = ((s.afterRecord q.wire).completeRequest q).limitIfDue.leaveIfDue := by
  have := State.arriveRecord_upTo (r := q.wire) (s := s) h hL
  unfold State.arriveRequest
  rw [this]
  show (State.completeRequest (q.wire.progress q.wire.bytes).request _).limitIfDue.leaveIfDue = _
  rw [Request.progress_request hL]

/-- The same for a data record. -/
theorem State.arriveData_upTo {d : DataRecord} {s : State} (h : s.readyFor (d.payload.length + 6))
    (hL : d.payload.length ≤ Config.maxPayload) :
    s.quiet.arriveRecord d.wire = ((s.afterRecord d.wire).completeData d).limitIfDue.leaveIfDue := by
  have := State.arriveRecord_upTo (r := d.wire) (s := s) h hL
  rw [this]
  show (State.completeData (d.wire.progress d.wire.bytes).dataRecord _).limitIfDue.leaveIfDue = _
  rw [DataRecord.progress_dataRecord hL]

/-- A request to the part's position is executed and replaced by its reply (R146, R147, R149). -/
theorem State.completeRequest_taken {q : Request} {s : State} (hi : s.inPath = true) (hne : q.target.toNat ≠ 0)
    (hp : s.position = some q.target.toNat) : s.completeRequest q = s.answer q.target.toNat q := by
  unfold State.completeRequest
  rw [if_pos hi, if_neg hne, hp]
  exact if_pos rfl

/-- A broadcast is executed without a reply, if it is one of the five (R147). -/
theorem State.completeRequest_broadcast {q : Request} {s : State} (hi : s.inPath = true) (h0 : q.target.toNat = 0) :
    s.completeRequest q = s.takeBroadcast q := by
  unfold State.completeRequest
  rw [if_pos hi, if_pos h0]

theorem padTo_eq {len : Nat} {data : List Byte} (h : data.length ≤ len) :
    padTo len data = data ++ List.replicate (len - data.length) 0#8 := by
  unfold padTo; exact List.take_of_length_le (by simp; omega)

/-- An addressed request is executed on the part as its completion finds it, and its reply stands in its place (R147, R149). -/
theorem State.arriveRequest_addressed {target tag code : Byte} {operands : List Byte} {s : State}
    {r : Response} (h : s.addressed target operands)
    (hr : respond code operands (s.afterRequest target tag code operands) = r) (hd : r.data.length ≤ operands.length) :
    s.arriveRequest { target := target, tag := tag, code := code, operands := operands } =
      r.state.replied target tag operands (byteOf r.result.code) r.data := by
  subst hr
  obtain ⟨hready, hL, hne, hp⟩ := h
  have htn : target.toNat ≠ 0 := fun h0 => hne (by apply BitVec.eq_of_toNat_eq; simpa using h0)
  rw [State.arriveRequest_ready hready hL]
  have hpath : (s.afterRecord (Request.wire ⟨target, tag, code, operands⟩)).inPath = true := hready.2.1
  have hpos : (s.afterRecord (Request.wire ⟨target, tag, code, operands⟩)).position = some target.toNat := hp
  rw [State.completeRequest_taken hpath htn hpos]
  unfold State.answer State.rewriteRecord overwriteNewest replyRecord State.replied State.afterRequest
  simp only [byteOf_byte]
  have hd' := hd
  unfold State.afterRequest at hd'
  rw [padTo_eq hd']
  simp only [WireRecord.symbols_length, List.length_append, List.length_replicate]
  rw [Nat.add_sub_cancel' hd']

/-- A request whose code and length pass comes to its own checks and effect. -/
theorem respond_carryOut {code : Byte} (k : RequestKind) {operands : List Byte} (hk : requestKind code = some k)
    (hl : k.minimum ≤ operands.length) (s : State) : respond code operands s = k.carryOut operands s := by
  simp [respond, hk, RequestKind.respond, Nat.not_lt.mpr hl]

end Sys2Proof.Machine
end

