-- ==== Sys2Proof/Laws/Engine.lean ====
section
/-! SUPPORT. What the Request Engine's operations come to: an answered request, one entry replaced, ALERTn in the words of the
statements, and the end of a long operation. -/

namespace Sys2Proof.Machine

/-- An addressed request whose response is known answers with it (R147, R149). -/
theorem answered {target tag code : Byte} {operands : List Byte} {s : State} (k : RequestKind) (hk : requestKind code = some k)
    (h : s.addressed target operands) (hl : k.minimum ≤ operands.length) {r : Response} {t : State}
    (hr : k.carryOut operands (s.afterRequest target tag code operands) = r) (hd : r.data.length ≤ operands.length)
    (ht : r.state.replied target tag operands (byteOf r.result.code) r.data = t) :
    Host.Outcome.next (s.arriveRequest ⟨target, tag, code, operands⟩) = (Host.Outcome.next t : Host.Outcome State Fault Refusal) :=
  congrArg Host.Outcome.next ((State.arriveRequest_addressed h ((respond_carryOut k hk hl _).trans hr) hd).trans ht)

/-- ALERTn is asserted exactly when some pending factor reaches the threshold (R132). -/
theorem AlertUnit.asserts_eq (a : AlertUnit) : a.asserts = reaches a.flags a.levels a.threshold := by
  simp [AlertUnit.asserts, allFactors, reaches, PerFactor.get, Bool.or_assoc]
  rfl

/-- With no factor pending ALERTn is not asserted. -/
theorem AlertUnit.asserts_none {a : AlertUnit} (h : a.flags = noFlags) : a.asserts = false := by
  rw [AlertUnit.asserts_eq, h]; rfl

/-- Modifying by a constant sets. -/
theorem modify_const {α : Type} (l : List α) (i : Nat) (x : α) : l.modify i (fun _ => x) = l.set i x := by
  induction l generalizing i with
  | nil => simp
  | cons a l ih => cases i <;> simp [ih]

/-- Modifying an entry sets it to the function of itself. -/
theorem modify_getD (l : List Entry) (i : Nat) (f : Entry → Entry) :
    l.modify i f = l.set i (f (l.getD i Entry.empty)) := by
  induction l generalizing i with
  | nil => simp
  | cons a l ih => cases i with
    | zero => simp
    | succ n => simp [ih]

/-- The entry updated, read back. -/
theorem State.entry_updateEntry (s : State) (i : Nat) (f : Entry → Entry) (hi : i < s.table.entries.length) :
    (s.updateEntry i f).entry i = f (s.entry i) := by
  simp [State.updateEntry, State.entry, List.getD_eq_getElem?_getD, hi]

/-- Another entry, read after an update. -/
theorem State.entry_updateEntry_ne (s : State) {i j : Nat} (f : Entry → Entry) (h : j ≠ i) :
    (s.updateEntry i f).entry j = s.entry j := by
  simp [State.updateEntry, State.entry, List.getD_eq_getElem?_getD, Ne.symm h]

/-- The end of a running operation but for OPDONE, and nothing on an idle slot (R63, R170, R171). -/
theorem State.closeOperation_eq (cause : EndCause) (how : TrialLeave) (s : State) :
    s.closeOperation cause how =
      { s with
        table := { s.table with entries := entriesOffTrial s.op.slot how.results s.table.entries }
        trialStreak := match s.op.slot with | .trial _ => 0 | _ => s.trialStreak
        op := { s.op with
          slot := .idle
          pendingAbort := if s.op.slot = OperationSlot.idle then s.op.pendingAbort else .none
          last := resultOf s.op.slot cause s.op.last } } := by
  unfold State.closeOperation
  cases hs : s.op.slot with
  | idle => simp only [entriesOffTrial, resultOf, if_true]; rw [← hs]
  | capture c => simp only [entriesOffTrial, resultOf, OperationUnit.finish, CaptureFields.result, reduceCtorEq, if_false]; rfl
  | trial tt => simp only [entriesOffTrial, resultOf, OperationUnit.finish, TrialFields.result, reduceCtorEq, if_false]; rfl

/-! ### Where the part stands in the stream -/

/-- The part elsewhere in the stream: another position, another Delay Line, another symbol count. -/
def State.moved (p : Option Nat) (d : List Symbol) (n : Nat) (s : State) : State :=
  { s with position := p, delay := d, framer := { s.framer with symbolCount := n } }
/-- The same response, leaving the part elsewhere in the stream. -/
def Response.moved (p : Option Nat) (d : List Symbol) (n : Nat) (r : Response) : Response := { r with state := r.state.moved p d n }

variable (p : Option Nat) (d : List Symbol) (n : Nat)

/-- The end of an operation looks at no place of the stream. -/
theorem State.closeOperation_moved (c : EndCause) (h : TrialLeave) (s : State) :
    (s.moved p d n).closeOperation c h = (s.closeOperation c h).moved p d n := by
  rw [State.closeOperation_eq, State.closeOperation_eq]; rfl

/-- A choice between two responses. -/
theorem ite_moved {c : Prop} [Decidable c] (a b : Response) :
    (if c then a.moved p d n else b.moved p d n) = (if c then a else b).moved p d n := by split <;> rfl

/-- Nor does an abort. -/
theorem State.abortOperation_moved (s : State) :
    (s.moved p d n).abortOperation = (s.abortOperation).moved p d n := by
  unfold State.abortOperation State.endOperation
  rw [State.closeOperation_moved]
  show (if s.op.slot.isIdle = true then _ else _) = _
  split <;> rfl

/-- Nor does storing one. -/
theorem State.storeAbort_moved (a : PendingAbort) (s : State) :
    (s.moved p d n).storeAbort a = (s.storeAbort a).moved p d n := by
  unfold State.storeAbort
  show (if s.op.slot.isIdle = true then _ else _) = _
  split <;> rfl

/-- Nor does the resolution of an address. -/
theorem withEntry_moved (ops : List Byte) (s : State) (f g : Nat → Response) (h : ∀ i, g i = (f i).moved p d n) :
    withEntry ops (s.moved p d n) g = (withEntry ops s f).moved p d n := by
  unfold withEntry
  show (match s.resolve _ with | none => _ | some i => _) = _
  cases s.resolve (operand ops 0) with
  | none => rfl
  | some i => exact h i

/-- A request's checks and effect look at no position, no Delay Line and no symbol count. -/
theorem RequestKind.carryOut_moved (k : RequestKind) (ops : List Byte) (s : State) :
    k.carryOut ops (s.moved p d n) = (k.carryOut ops s).moved p d n := by
  cases k
  case readEntry =>
    refine withEntry_moved p d n ops s _ _ ?_
    intro i
    simp only [← ite_moved]; rfl
  case loadEntry =>
    refine withEntry_moved p d n ops s _ _ ?_
    intro i
    simp only [← ite_moved]
    cases configOf ops 1 <;> rfl
  case arm =>
    refine withEntry_moved p d n ops s _ _ ?_
    intro i
    show (match (s.entry i).state with | .free => _ | .trial => _ | .armed => _ | .loaded => _) = _
    cases h : (s.entry i).state <;> simp only [← ite_moved] <;> rfl
  case disarm =>
    refine withEntry_moved p d n ops s _ _ ?_
    intro i
    show (match (s.entry i).state with | .free => _ | .trial => _ | .loaded => _ | .armed => _) = _
    cases h : (s.entry i).state <;> rfl
  case free =>
    refine withEntry_moved p d n ops s _ _ ?_
    intro i
    show (match (s.entry i).state with | .free => _ | .loaded => _ | .armed => _ | .trial => _) = _
    cases h : (s.entry i).state <;> rfl
  case startTrial =>
    refine withEntry_moved p d n ops s _ _ ?_
    intro i
    show (match (s.entry i).state with | .free => _ | .armed => _ | .trial => _ | .loaded => _) = _
    cases h : (s.entry i).state <;> simp only [← ite_moved] <;> rfl
  case clearAlerts =>
    show reqClearAlerts ops _ = (reqClearAlerts ops s).moved p d n
    unfold reqClearAlerts
    generalize operandNat ops 1 = k
    rcases k with _ | _ | _ | k
    · rfl
    · dsimp only
      show (match s.resolve _ with | none => _ | some i => _) = _
      cases s.resolve (operand ops 2) <;> rfl
    · rfl
    · rfl
  case setMode =>
    show reqSetMode ops _ = (reqSetMode ops s).moved p d n
    unfold reqSetMode
    generalize operandNat ops 0 = k
    rcases k with _ | _ | _ | _ | k
    · rfl
    · rfl
    · rfl
    · simp only [← ite_moved]; rfl
    · rfl
  case release =>
    unfold RequestKind.carryOut reqRelease Response.moved
    show Response.mk _ _ (if s.reaction.isolated = true then _ else _) = _
    split <;> rfl
  case restart =>
    show reqRestart ops _ = (reqRestart ops s).moved p d n
    unfold reqRestart
    dsimp only
    generalize (operand ops 0).toNat = k
    rcases k with _ | _ | k
    · simp only [State.restartWarm, State.closeOperation_moved]; rfl
    · simp only [State.restartTable, State.closeOperation_moved]; rfl
    · rfl
  case abort =>
    show reqAbort ops _ = (reqAbort ops s).moved p d n
    unfold reqAbort
    generalize operandNat ops 0 = k
    rcases k with _ | _ | _ | _ | _ | k
    · rfl
    · rw [State.abortOperation_moved]; rfl
    · unfold State.abortQuietly; rw [State.closeOperation_moved]; rfl
    · show acceptAbort _ (State.storeAbort .atTrip (s.moved p d n)) = _; rw [State.storeAbort_moved]; rfl
    · show acceptAbort _ (State.storeAbort .atTrain (s.moved p d n)) = _; rw [State.storeAbort_moved]; rfl
    · rfl
  all_goals first | rfl | skip
  all_goals
    simp only [RequestKind.carryOut, reqReadSlot, reqSetAlerts, reqSetWindows, reqLoadSlot, reqStartCapture, ← ite_moved]
    try rfl

/-- A response looks at no position, no Delay Line and no symbol count (R147, R148). -/
theorem respond_moved (code : Byte) (ops : List Byte) (s : State) :
    respond code ops (s.moved p d n) = (respond code ops s).moved p d n := by
  unfold respond
  split
  · rfl
  · unfold RequestKind.respond
    split
    · rfl
    · exact RequestKind.carryOut_moved p d n _ ops s

/-- A command that carries a request is the arrival of that request. -/
theorem exec_request {c : Instr} {q : Request} {s : State} (h : requestOf c = some q) : exec c s = .next (s.arriveRequest q) := by
  cases c <;> first | (cases h; rfl) | cases h

/-- A code outside 1 to 20 names no request. -/
theorem requestKind_none {code : Byte} (h : ¬ (1 ≤ code.toNat ∧ code.toNat ≤ 20)) : requestKind code = none := by
  revert h; revert code; decide

/-- The minimum of the request a code names. -/
theorem requestKind_minimum (code : Byte) :
    (requestKind code).map RequestKind.minimum =
      if code.toNat = 0 ∨ 20 < code.toNat then none else some (minimumLength code) := by
  revert code; decide

/-- ABORT NOW's part of the state: the operation ended, OPDONE raised; nothing on an idle slot. -/
theorem State.abortOperation_eq (s : State) :
    s.abortOperation = if s.op.slot = .idle then s else (s.operationEnded .aborted keptIncomplete).raise .opdone := by
  unfold State.abortOperation State.endOperation
  rw [State.closeOperation_eq]
  cases hs : s.op.slot <;> simp [OperationSlot.isIdle, State.operationEnded, hs] <;> rfl

end Sys2Proof.Machine
end

