-- ==== Sys2Proof/Laws/Arrival.lean ====
section
/-! SUPPORT. One arrival in three moves: the line, the Framer's taking of the symbol, and the looks at the train's limit and at a leave. -/

namespace Sys2Proof.Machine

/-- A train is open exactly when the parse position is not OUTSIDE. -/
theorem Framer.trainOpen_iff (f : Framer) : f.trainOpen = true ↔ f.position ≠ .outside := by
  unfold Framer.trainOpen; cases f.position <;> simp

/-- What the Framer's taking of an arrival leaves, before the limit and a leave are looked at. -/
theorem State.takeArrival_eq (s : State) (x : LineSymbol) : s.quiet.takeArrival x = (s.afterArrival x).takeSymbol x.taken := by
  unfold State.takeArrival
  congr 1
  unfold State.moveLine State.afterArrival Framer.hear State.quiet
  have hp := Framer.trainOpen_iff s.framer
  by_cases ho : s.framer.position = .outside
  · have : s.framer.trainOpen = false := by rw [← Bool.not_eq_true, hp]; simpa using ho
    cases h1 : s.link.draining <;> cases h2 : s.inPath <;>
      simp_all [State.emit, State.inPath, Option.toList_map]
  · have := hp.2 ho
    cases h1 : s.link.draining <;> cases h2 : s.inPath <;>
      simp_all [State.emit, State.inPath, Option.toList_map]

/-- An arrival while the part runs (R24): the line moves, the Framer takes the symbol, then the limit and a leave are looked at. -/
theorem State.arrive_running {s : State} (x : LineSymbol) (h : s.running = true) :
    s.quiet.arrive x = ((s.afterArrival x).takeSymbol x.taken).limitIfDue.leaveIfDue := by
  unfold State.arrive State.hearSymbol
  rw [if_pos (show s.quiet.running = true from h), State.takeArrival_eq]

/-- Nothing comes of the limit when no train is open or its count is not 2048. -/
theorem State.limitIfDue_none {s : State} (h : s.framer.position = .outside ∨ s.framer.symbolCount ≠ 2048) :
    s.limitIfDue = s := by
  unfold State.limitIfDue
  rw [if_neg]
  rw [Bool.and_eq_true, decide_eq_true_eq, Framer.trainOpen_iff]
  rintro ⟨h1, h2⟩
  exact h.elim h1 (fun h => h h2)

/-- Nothing comes of a leave outside LEAVE-WAIT, with a train open, or with anything but FILL held. -/
theorem State.leaveIfDue_none {s : State}
    (h : s.link.state ≠ .leaveWait ∨ s.framer.position ≠ .outside ∨ s.delay ≠ fillDelay) : s.leaveIfDue = s := by
  unfold State.leaveIfDue
  rw [if_neg]
  unfold State.leaveDue
  simp only [Bool.and_eq_true, beq_iff_eq, Bool.not_eq_true', ← Bool.not_eq_true, Framer.trainOpen_iff, not_not]
  rintro ⟨⟨⟨h1, h2⟩, h3⟩, h4⟩
  rcases h with h | h | h
  · exact h h1
  · exact h h2
  · exact h h3

/-- An arrival that leaves a train open below its limit is the Framer's taking of the symbol alone. -/
theorem State.arrive_inTrain {s t : State} {x : LineSymbol} (h : s.running = true)
    (ht : (s.afterArrival x).takeSymbol x.taken = t) (ho : t.framer.position ≠ .outside) (hc : t.framer.symbolCount ≠ 2048) :
    s.quiet.arrive x = t := by
  rw [State.arrive_running x h, ht, State.limitIfDue_none (.inr hc), State.leaveIfDue_none (.inr (.inl ho))]

/-- An arrival that leaves no train open is the Framer's taking of the symbol and the look at a leave. -/
theorem State.arrive_betweenTrains {s t : State} {x : LineSymbol} (h : s.running = true)
    (ht : (s.afterArrival x).takeSymbol x.taken = t) (ho : t.framer.position = .outside) : s.quiet.arrive x = t.leaveIfDue := by
  rw [State.arrive_running x h, ht, State.limitIfDue_none (.inl ho)]

end Sys2Proof.Machine
end

