-- ==== Sys2Proof/Laws/Image.lean ====
section
/-! SUPPORT. The bytes of a configuration and of an entry image, written out one by one (R189). -/

namespace Sys2Proof.Machine

/-- A flag in a bit of a byte, as the byte with that bit or 0. -/
theorem bitAt_eq (b : Bool) (k : Nat) : bitAt b k = if b = true then 1#8 <<< k else 0#8 := rfl

/-- The high four bits of a byte hold a number as 16 times it. -/
theorem fieldAt_four (n : Nat) : fieldAt n 4 = BitVec.ofNat 8 (16 * n) := by
  apply BitVec.eq_of_toNat_eq
  simp [fieldAt, byteOf, Nat.shiftLeft_eq]
  omega

/-- The high byte of a 16-bit count. -/
theorem highByte_ofNat (n : Nat) : highByte (BitVec.ofNat 16 n) = BitVec.ofNat 8 (n / 256) := by
  apply BitVec.eq_of_toNat_eq
  simp [highByte, Nat.shiftRight_eq_div_pow]
  omega

/-- The low byte of a 16-bit count. -/
theorem lowByte_ofNat (n : Nat) : lowByte (BitVec.ofNat 16 n) = BitVec.ofNat 8 n := by
  apply BitVec.eq_of_toNat_eq
  simp [lowByte]

/-- The kind, reaction and latch byte, from its three fields. -/
theorem EntryConfig.kindByte_eq (c : EntryConfig) :
    c.kindByte =
      (match c.kind with | .window => 0#8 | .pattern => 1#8 | .delta => 2#8) |||
        (match c.reaction with | .pass => 0#8 | .mark => 4#8 | .substitute => 8#8 | .drop => 12#8 | .isolate => 16#8) |||
        (if c.latch = true then 32#8 else 0#8) := by
  unfold EntryConfig.kindByte
  cases c.kind <;> cases c.reaction <;> cases c.latch <;> rfl

/-- The field byte, from its three fields. -/
theorem EntryConfig.fieldByte_eq (c : EntryConfig) :
    c.fieldByte =
      BitVec.ofNat 8 c.offset ||| (if c.wide = true then 64#8 else 0#8) ||| (if c.signed = true then 128#8 else 0#8) := by
  unfold EntryConfig.fieldByte
  cases c.wide <;> cases c.signed <;> rfl

/-- The twelve configuration bytes. -/
theorem EntryConfig.toBytes_eq (c : EntryConfig) :
    c.toBytes =
      [c.source, c.channel, c.fieldByte, c.kindByte, highByte c.a, lowByte c.a, highByte c.b, lowByte c.b,
        byteOf c.deglitch, byteOf c.period, byteOf c.missLimit, byteOf c.slot] := rfl

/-- The first byte of an entry image, from the entry's state and live fields. -/
theorem Entry.stateByte_eq (e : Entry) :
    fieldAt e.state.code 0 ||| fieldAt e.live.condition.code 2 ||| bitAt e.live.recovered 4 |||
        fieldAt e.live.timing.code 5 ||| bitAt e.live.trial.isSome 7 =
      (match e.state with | .free => 0#8 | .loaded => 1#8 | .armed => 2#8 | .trial => 3#8) |||
        (match e.live.condition with | .conforming => 0#8 | .suspect => 4#8 | .tripped => 8#8) |||
        (if e.live.recovered = true then 16#8 else 0#8) |||
        (match e.live.timing with | .fresh => 0#8 | .late => 32#8 | .stale => 64#8) |||
        (if e.live.trial.isSome = true then 128#8 else 0#8) := by
  cases e.state <;> cases e.live.condition <;> cases e.live.recovered <;> cases e.live.timing <;>
    cases e.live.trial.isSome <;> rfl

/-- The five bytes of the trial results. -/
theorem Live.trialBytes_eq (l : Live) :
    let count := fun f : TrialResults → Nat => match l.trial with | some r => f r | none => 0
    l.trialBytes =
      [byteOf (count (·.seen) / 256), byteOf (count (·.seen)), byteOf (count (·.nonconforming) / 256),
        byteOf (count (·.nonconforming)), byteOf (count (·.longestRun))] := by
  unfold Live.trialBytes
  cases l.trial with
  | none => rfl
  | some r => simp [wordBytes, highByte_ofNat, lowByte_ofNat, byteOf]

/-- The 24 bytes of an entry image, those of whole fields one by one. -/
theorem Entry.image_eq (e : Entry) :
    e.image =
      [fieldAt e.state.code 0 ||| fieldAt e.live.condition.code 2 ||| bitAt e.live.recovered 4 |||
          fieldAt e.live.timing.code 5 ||| bitAt e.live.trial.isSome 7,
        e.config.source, e.config.channel, e.config.fieldByte,
        e.config.kindByte ||| bitAt e.live.previous.isSome 6 ||| bitAt e.live.trialIncomplete 7,
        highByte e.config.a, lowByte e.config.a, highByte e.config.b, lowByte e.config.b,
        byteOf (16 * e.config.deglitch) ||| byteOf e.live.run, byteOf e.config.period,
        byteOf (16 * e.config.missLimit) ||| byteOf e.live.miss, byteOf e.live.since, byteOf e.config.slot,
        highByte (e.live.previous.getD 0#16), lowByte (e.live.previous.getD 0#16), byteOf e.live.trips,
        byteOf (e.live.nonconforming / 256), byteOf e.live.nonconforming] ++ e.live.trialBytes := by
  unfold Entry.image
  simp only [wordBytes, fieldAt_four, highByte_ofNat, lowByte_ofNat, List.cons_append, List.nil_append, byteOf]

end Sys2Proof.Machine
end

