-- ==== Sys2Proof/Laws/Lawful.lean ====
section
/-! SUPPORT. The invariants on a written-out state: a bounded form that can be decided, and that it implies the invariant. -/

namespace Sys2Proof.Machine

/-- Every entry outside the table's list reads as the empty entry. -/
theorem State.entry_eq (s : State) (i : Nat) : s.entry i ∈ s.table.entries ∨ s.entry i = Entry.empty := by
  unfold State.entry
  rw [List.getD_eq_getElem?_getD]
  cases h : s.table.entries[i]? with
  | none => exact Or.inr rfl
  | some e => exact Or.inl (List.mem_of_getElem? h)

/-- The entry of an index beyond the list is the empty entry. -/
theorem State.entry_beyond {s : State} {i : Nat} (h : s.table.entries.length ≤ i) : s.entry i = Entry.empty := by
  unfold State.entry
  rw [List.getD_eq_getElem?_getD, List.getElem?_eq_none h]; rfl

theorem Entry.empty_lawful : Entry.empty.lawful := by
  simp [Entry.lawful, Entry.empty, Live.starting, EntryConfig.zero]

/-- withinCapacity, bounded. -/
abbrev State.capacityCheck (s : State) : Prop :=
  s.table.entries.length = 64 ∧ s.table.w0 ≤ 7 ∧ s.table.w1 ≤ 7 ∧
  s.reaction.store.length = 16 ∧ (∀ content ∈ s.reaction.store, content.length ≤ 48) ∧
  s.queue.items.length ≤ 32 ∧
  (∀ p ∈ s.queue.items.zipIdx, p.1.sequence = s.queue.counter - BitVec.ofNat 8 (s.queue.items.length - p.2)) ∧
  s.op.fifo.length ≤ 512 ∧
  (∀ f ∈ [Factor.trip, .stale, .link, .qfull, .slot, .isol, .opdone], s.alert.levels.get f ≤ 3) ∧
  1 ≤ s.alert.threshold ∧ s.alert.threshold ≤ 3 ∧ s.alert.noticeRun ≤ 12 ∧
  (match s.framer.position with
    | .record r => decide ((r.bytes.getD 0 0#8).toNat ≤ 48)
    | _ => true) = true

theorem State.withinCapacity_of_check {s : State} (h : s.capacityCheck) : s.withinCapacity := by
  obtain ⟨h1, h2, h3, h4, h5, h6, h7, h8, h9, h10, h11, h12, h13⟩ := h
  refine ⟨h1, h2, h3, h4, h5, h6, ?_, h8, ?_, h10, h11, h12, ?_⟩
  · intro k x hk
    exact h7 (x, k) (List.mk_mem_zipIdx_iff_getElem?.2 hk)
  · intro f
    exact h9 f (by cases f <;> simp)
  · intro r hr
    rw [hr] at h13
    simpa using h13

/-- Framer.sound and placed, bounded. -/
abbrev State.placeCheck (s : State) : Prop :=
  ((match s.framer.position with
    | .outside => decide (s.framer.symbolCount = 0)
    | .header due => decide (1 ≤ due ∧ due ≤ 3 ∧ s.framer.symbolCount = due ∧ s.framer.statusBytes = [] ∧
        (1 < due → 1 ≤ s.framer.slotCount ∧ s.framer.slotCount ≤ 31))
    | .status due => decide (1 ≤ due ∧ due ≤ s.framer.slotCount ∧ s.framer.slotCount ≤ 31 ∧
        s.framer.statusBytes.length + 1 = due ∧ s.framer.symbolCount = due + 3)
    | .body => decide (5 ≤ s.framer.symbolCount ∧ s.framer.symbolCount < 2048)
    | .record r => decide (5 ≤ s.framer.symbolCount ∧ s.framer.symbolCount < 2048 ∧
        (r.bytes ≠ [] → (r.bytes.getD 0 0#8).toNat ≤ 48 ∧ r.bytes.length ≤ (r.bytes.getD 0 0#8).toNat + 5))
    | .skip => decide (5 ≤ s.framer.symbolCount ∧ s.framer.symbolCount < 2048 ∧ s.framer.trainFaulted = true)
    | .unread => decide (1 ≤ s.framer.symbolCount ∧ s.framer.symbolCount < 2048)) = true ∧
  (s.framer.signal = .lost → s.framer.position = .outside ∧ s.framer.silence = 128) ∧
  (s.framer.signal = .present → s.framer.silence < 128)) ∧
  (s.powered = true → s.link.bypassClosed = !(s.inPath || s.link.draining)) ∧
  (s.inPath = true → s.link.draining = false ∧ s.delay.length = 64) ∧
  (s.link.draining = true → s.delay.length ≤ 64) ∧ (s.link.drainTa = true → s.link.draining = true) ∧
  s.link.cleanCount ≤ 1 ∧ (s.link.cleanCount = 1 → s.link.state = .acquire) ∧
  s.link.heldCount ≤ 255 ∧ (s.link.heldCount ≠ 0 → s.link.state = .leaveWait ∨ s.link.state = .held) ∧
  (s.link.pendingMode ≠ .none → s.inPath = true ∧ s.framer.position ≠ .outside) ∧
  (match s.link.pendingMode with
    | .bypass h => decide (h ≤ 255 ∧ s.link.mode = .observe)
    | _ => true) = true ∧
  (match s.position with
    | some k => decide (1 ≤ k ∧ k ≤ 31 ∧ s.inPath = true ∧ s.framer.position ≠ .outside)
    | none => true) = true ∧
  (s.link.state = .leaveWait ∨ s.link.state = .held → s.link.mode = .observe) ∧
  (s.alert.noticeRun ≠ 0 → s.inPath = true ∧ s.framer.position = .body)

theorem State.placed_of_check {s : State} (h : s.placeCheck) : s.placed := by
  obtain ⟨⟨f1, f2, f3⟩, h1, h2, h3, h4, h5, h6, h7, h8, h9, h10, h11, h12, h13⟩ := h
  refine ⟨⟨?_, f2, f3⟩, h1, h2, h3, h4, h5, h6, h7, h8, h9, ?_, ?_, h12, h13⟩
  · revert f1
    cases s.framer.position <;> exact fun f1 => of_decide_eq_true f1
  · intro n hn
    rw [hn] at h10
    exact of_decide_eq_true h10
  · intro k hk
    rw [hk] at h11
    exact of_decide_eq_true h11

/-- Entry.lawful, decidable as it stands but for the trial results. -/
abbrev Entry.check (e : Entry) : Prop :=
  (e.state = .free → e = Entry.empty) ∧
  (e.state ≠ .free →
    e.config.offset + (if e.config.wide = true then 2 else 1) ≤ 48 ∧ 1 ≤ e.config.deglitch ∧ e.config.deglitch ≤ 15 ∧
      1 ≤ e.config.missLimit ∧ e.config.missLimit ≤ 15 ∧ e.config.period ≤ 255 ∧ e.config.slot ≤ 15) ∧
  (match e.live.condition with
    | .conforming => decide (e.live.run = 0 ∧ e.live.recovered = false)
    | .suspect => decide (1 ≤ e.live.run ∧ e.live.run < e.config.deglitch ∧ e.live.recovered = false)
    | .tripped => decide (e.live.run = e.config.deglitch)) = true ∧
  (match e.live.timing with
    | .fresh => decide (e.live.miss = 0)
    | .late => decide (1 ≤ e.live.miss ∧ e.live.miss < e.config.missLimit)
    | .stale => decide (e.live.miss = e.config.missLimit ∧ e.live.since = 0)) = true ∧
  (if e.config.period = 0 ∨ e.state ≠ .armed then decide (e.live.timing = .fresh ∧ e.live.since = 0)
    else decide (e.live.since < e.config.period)) = true ∧
  (e.state = .loaded → e.live.condition = .conforming) ∧
  (e.live.previous.isSome = true → e.config.kind = .delta) ∧ e.live.trips ≤ 255 ∧ e.live.nonconforming ≤ 65535 ∧
  (e.state = .armed → e.live.trial = none) ∧
  (match e.live.trial with
    | some r => decide ((e.state = .trial → r.incomplete = true) ∧ r.seen ≤ 65535 ∧ r.nonconforming ≤ r.seen ∧ r.longestRun ≤ 255)
    | none => decide (e.state ≠ .trial)) = true

theorem Entry.lawful_of_check {e : Entry} (h : e.check) : e.lawful := by
  obtain ⟨h1, h2, h3, h4, h5, h6, h7, h8, h9, h10, h11⟩ := h
  refine ⟨h1, h2, ?_, ?_, ?_, h6, h7, h8, h9, h10, ?_, ?_⟩
  · revert h3
    cases e.live.condition <;> exact fun h => of_decide_eq_true h
  · revert h4
    cases e.live.timing <;> exact fun h => of_decide_eq_true h
  · revert h5
    split <;> exact fun h => of_decide_eq_true h
  · intro ht
    cases hr : e.live.trial with
    | none => rw [hr] at h11; exact absurd ht (of_decide_eq_true h11)
    | some r => rw [hr] at h11; exact ⟨r, rfl, (of_decide_eq_true h11).1 ht⟩
  · intro r hr
    rw [hr] at h11
    exact (of_decide_eq_true h11).2

/-- tableLawful, bounded. -/
abbrev State.tableCheck (s : State) : Prop :=
  s.table.entries.length = 64 ∧ (∀ e ∈ s.table.entries, e.check) ∧
  (∀ p ∈ s.table.entries.zipIdx, p.1.state = .armed ∨ p.1.state = .trial →
    ∀ q ∈ s.table.entries.zipIdx, q.1.state = .armed ∨ q.1.state = .trial → p.2 ≠ q.2 →
      ¬ (p.1.config.source = q.1.config.source ∧ p.1.config.channel = q.1.config.channel)) ∧
  (∀ p ∈ s.table.entries.zipIdx, p.1.state = .armed ∧ p.1.config.reaction = .substitute →
    ∀ q ∈ s.table.entries.zipIdx, q.1.state = .armed ∧ q.1.config.reaction = .substitute → p.2 ≠ q.2 →
      p.1.config.slot ≠ q.1.config.slot) ∧
  (∀ p ∈ s.table.entries.zipIdx, p.1.state = .trial ↔
    (match s.op.slot with | .trial t => decide (t.entry = p.2) | _ => false) = true) ∧
  s.trialStreak ≤ 255 ∧
  (match s.op.slot with
    | .idle => decide (s.op.pendingAbort = .none)
    | .capture c => decide (c.wanted ≤ 32 ∧ c.matched < c.wanted ∧ c.stored + c.lost = c.matched ∧ c.limit ≤ 255 ∧ c.without < c.limit)
    | .trial t => decide (t.entry < 64 ∧ t.limit ≤ 255 ∧ t.counted < t.limit)) = true

theorem State.entry_mem {s : State} {i : Nat} (h : (s.entry i).state ≠ .free) : (s.entry i, i) ∈ s.table.entries.zipIdx := by
  rw [List.mk_mem_zipIdx_iff_getElem?]
  unfold State.entry at h ⊢
  rw [List.getD_eq_getElem?_getD] at h ⊢
  cases hi : s.table.entries[i]? with
  | none => rw [hi] at h; exact absurd rfl h
  | some e => rfl

theorem State.tableLawful_of_check {s : State} (h : s.tableCheck) : s.tableLawful := by
  obtain ⟨h1, h2, h3, h4, h5, h6, h7⟩ := h
  have working : ∀ i, (s.entry i).state = .armed ∨ (s.entry i).state = .trial → (s.entry i, i) ∈ s.table.entries.zipIdx := by
    intro i hi
    exact State.entry_mem (by rcases hi with hi | hi <;> rw [hi] <;> simp)
  refine ⟨h1, ?_, ?_, ?_, ?_, h6, ?_⟩
  · intro i
    rcases s.entry_eq i with hi | hi
    · exact Entry.lawful_of_check (h2 _ hi)
    · rw [hi]; exact Entry.empty_lawful
  · exact fun i j hij hi hj => h3 _ (working i hi) hi _ (working j hj) hj hij
  · exact fun i j hij hi hj => h4 _ (working i (Or.inl hi.1)) hi _ (working j (Or.inl hj.1)) hj hij
  · intro i
    constructor
    · intro hi
      have := (h5 _ (working i (Or.inr hi))).1 hi
      cases hs : s.op.slot with
      | idle => rw [hs] at this; cases this
      | capture c => rw [hs] at this; cases this
      | trial t => rw [hs] at this; exact ⟨t, rfl, of_decide_eq_true this⟩
    · rintro ⟨t, ht, rfl⟩
      rw [ht] at h7
      have hlt : t.entry < s.table.entries.length := by rw [h1]; exact (of_decide_eq_true h7).1
      have hm : (s.entry t.entry, t.entry) ∈ s.table.entries.zipIdx := by
        rw [List.mk_mem_zipIdx_iff_getElem?]
        unfold State.entry
        rw [List.getD_eq_getElem?_getD, List.getElem?_eq_getElem hlt]; rfl
      exact (h5 _ hm).2 (by rw [ht]; simp)
  · revert h7
    cases s.op.slot with
    | idle => exact fun h => of_decide_eq_true h
    | capture c => exact fun h => of_decide_eq_true h
    | trial t => exact fun h => (of_decide_eq_true h).2

/-- The bounded forms together imply the invariants. -/
theorem State.lawful_of_checks {s : State} (h1 : s.capacityCheck)
    (h2 : s.alert.flags.isol = s.reaction.isolated ∧
      s.alert.alertn = (s.powered && reaches s.alert.flags s.alert.levels s.alert.threshold) ∧
      (s.alert.noticeWaiting = true → s.alert.noticeEnable = true))
    (h3 : s.placeCheck) (h4 : s.tableCheck) : s.lawful :=
  ⟨State.withinCapacity_of_check h1, h2, State.placed_of_check h3, State.tableLawful_of_check h4⟩

end Sys2Proof.Machine
end

