-- ==== Sys2Proof/Tests/Slice0.lean ====
section
/-! SUPPORT. The ill-formed commands that the check refuses, small steps on small states, and for each statement states and operands that
meet its hypotheses. -/

namespace Sys2Proof.Tests

open Sys2Proof.Machine

/-! ### Well-formedness -/

def bytes (n : Nat) : List Byte := List.replicate n 0#8

theorem test_wellFormed_refuses_a_limit_break_by_an_end :
    [Symbol.te, .ta, .ts].all (fun x => !(Instr.trainLimitBreak (.readable x)).wellFormed) = true ∧
    (Instr.trainLimitBreak .unreadable).wellFormed = true := by decide

theorem test_wellFormed_refuses_entry_64 :
    (Instr.periodExpiry 64 .silence).wellFormed = false ∧ (Instr.stale 64 .silence).wellFormed = false ∧
    (Instr.periodExpiry 63 .silence).wellFormed = true ∧ (Instr.stale 63 .silence).wellFormed = true := by decide

/-- The commands that carry a record with n payload bytes. -/
def carrying (n : Nat) : List Instr :=
  let b := bytes n
  let r := bytes (n - 1)
  [.dataRecordCompletion 0#8 0#8 0#8 b, .identify 1#8 0#8 b, .readStatus 1#8 0#8 b, .setAlerts 1#8 0#8 b, .clearAlerts 1#8 0#8 b,
    .takeIncidents 1#8 0#8 b, .setWindows 1#8 0#8 b, .readEntry 1#8 0#8 b, .loadEntry 1#8 0#8 b, .arm 1#8 0#8 b, .disarm 1#8 0#8 b,
    .free 1#8 0#8 b, .loadSlot 1#8 0#8 b, .readSlot 1#8 0#8 b] ++
  [.setModeObserve 1#8 0#8 r, .setModeActive 1#8 0#8 r, .setModeBypass 1#8 0#8 r, .release 1#8 0#8 b, .restartWarm 1#8 0#8 r,
    .restartTable 1#8 0#8 r, .startCapture 1#8 0#8 b, .readCapture 1#8 0#8 b, .startTrial 1#8 0#8 b, .abortNow 1#8 0#8 r,
    .abortQuiet 1#8 0#8 r, .abortAtTrip 1#8 0#8 r, .abortAtTrain 1#8 0#8 r, .badCode 0#8 1#8 0#8 b]

theorem test_wellFormed_refuses_49_payload_bytes :
    (carrying 49).all (fun c => !c.wellFormed) = true ∧ (carrying 48).all (fun c => c.wellFormed) = true := by decide +kernel

theorem test_wellFormed_refuses_a_bad_code_that_is_known :
    (Instr.badCode 1#8 1#8 0#8 []).wellFormed = false ∧ (Instr.badCode 20#8 1#8 0#8 []).wellFormed = false ∧
    (Instr.badCode 21#8 1#8 0#8 []).wellFormed = true := by decide

/-! ### The spec's own numbers -/

/-- R11: the nine test bytes give 10673, sent as 41 and 177. -/
theorem test_check_of_the_nine_bytes :
    checkOf [49#8, 50#8, 51#8, 52#8, 53#8, 54#8, 55#8, 56#8, 57#8] = 10673#16 ∧ wordBytes 10673#16 = [41#8, 177#8] := by
  decide +kernel

theorem test_reset_is_lawful : State.reset.lawful :=
  State.lawful_of_checks (by decide +kernel) (by decide +kernel) (by decide +kernel) (by decide +kernel)

/-! ### Small states -/

def tableOf (es : List Entry) : WatchTable :=
  { entries := es ++ List.replicate (64 - es.length) Entry.empty, w0 := 0, w1 := 1 }

/-- In the path at position 1, in the body of a readable train, with this many symbols of it taken. -/
def body (mode : Mode) (flags : Byte) (count : Nat) (es : List Entry) : State :=
  { State.reset with
    framer := { Framer.reset with
      position := .body, slotCount := 1, flags := flags, sequence := 9#8, statusBytes := [255#8], symbolCount := count }
    link := { Link.reset with state := .inline, mode := mode, bypassClosed := false }
    position := some 1
    table := tableOf es }

/-- In a train with FREEZE clear, soon after its header. -/
def plain (es : List Entry) : State := body .active 0#8 5 es

def runs (slot : OperationSlot) (s : State) : State := { s with op := { s.op with slot := slot } }

def capturing : OperationSlot :=
  .capture { source := 1#8, channel := 2#8, channelAny := false, wanted := 1, limit := 1, matched := 0, stored := 0, lost := 0, without := 0 }

def trying : OperationSlot := .trial { entry := 0, limit := 1, counted := 0 }

/-- An entry for source 1, channel 2: its first byte lies between 10 and 20. -/
def watchOf (state : EntryState) (reaction : Reaction) (slot : Nat) : Entry :=
  { state := state
    config := { EntryConfig.zero with
      source := 1#8, channel := 2#8, a := 10#16, b := 20#16, deglitch := 2, period := 1, missLimit := 2, reaction := reaction, slot := slot }
    live := Live.starting }

def tripped (reaction : Reaction) (latch : Bool) (recovered : Bool) : Entry :=
  let e := watchOf .armed reaction 0
  { e with config := { e.config with latch := latch }, live := { e.live with condition := .tripped, run := 2, recovered := recovered } }

def onTrial : Entry :=
  let e := watchOf .trial .mark 0
  { e with live := { e.live with trial := some { seen := 0, nonconforming := 0, longestRun := 0, incomplete := true } } }

def record (value : Byte) : DataRecord := { source := 1#8, channel := 2#8, flags := 0#8, payload := [value] }

/-- A request or a data record of n payload bytes can arrive in the body of such a train. -/
theorem body_readyFor {mode : Mode} {flags : Byte} {count n : Nat} {es : List Entry} (h : count + n < 2048) :
    (body mode flags count es).readyFor n :=
  ⟨rfl, rfl, rfl, rfl, rfl, h⟩

theorem plain_addressed {es : List Entry} {operands : List Byte} (h : operands.length ≤ 48) : (plain es).addressed 1#8 operands :=
  ⟨body_readyFor (by omega), h, by decide, rfl⟩

theorem runs_addressed {slot : OperationSlot} {es : List Entry} {operands : List Byte} (h : operands.length ≤ 48) :
    (runs slot (plain es)).addressed 1#8 operands :=
  plain_addressed (es := es) h

theorem plain_entry {es : List Entry} {i : Nat} (h : es.length ≤ i) : (plain es).entry i = Entry.empty := by
  by_cases hi : i < 64
  · show (es ++ List.replicate (64 - es.length) Entry.empty).getD i Entry.empty = _
    rw [List.getD_append_right _ _ _ _ h, List.getD_eq_getElem?_getD, List.getElem?_replicate]
    split <;> rfl
  · by_cases hl : es.length ≤ 64
    · exact State.entry_beyond (by simp [plain, body, tableOf]; omega)
    · exact State.entry_beyond (by simp [plain, body, tableOf]; omega)

/-! ### Small steps -/

/-- What left at DN, and what the newest places hold, after a command. -/
def after (c : Instr) (s : State) : State := match exec c s with | .next t => t | _ => s

theorem test_power_on_reads_the_rate : (after (.powerOn true true) State.reset).rate = .million100 := by decide +kernel
theorem test_resetn_low_closes_the_switch : (after .resetnAssert (plain [])).link.bypassClosed = true := by decide +kernel
theorem test_resetn_high_reads_the_rate : (after (.resetnRelease true false) (after .resetnAssert (plain []))).rate = .million25 := by
  decide +kernel
theorem test_power_loss_releases_the_line : (after .powerLoss (after (.symbolArrival (.readable (.data 3#8))) (plain []))).alert.alertn = false := by
  decide +kernel
theorem test_a_train_start_opens_a_train : (after (.symbolArrival (.readable .ts)) State.reset).framer.position = .header 1 := by
  decide +kernel
theorem test_a_stray_symbol_raises_link : (after (.symbolArrival (.readable (.data 3#8))) (plain [])).alert.flags.link = true := by
  decide +kernel
theorem test_the_limit_breaks_a_train :
    (after (.trainLimitBreak (.readable .fill)) (body .active 0#8 2047 [])).framer.position = .outside := by decide +kernel
theorem test_silence_drains : (after .lossOfSignal (plain [])).link.draining = true := by decide +kernel
theorem test_a_drain_sends_64_symbols_and_a_ta : (after .drainEnd (after .lossOfSignal (plain []))).dn.length = 65 := by decide +kernel
theorem test_isolation_blanks_a_record :
    (after (.dataRecordCompletion 1#8 2#8 0#8 [5#8])
      { plain [] with reaction := { (plain []).reaction with isolated := true } }).delay.take 8 = List.replicate 8 .fill := by
  decide +kernel
theorem test_a_second_bad_record_trips_and_is_marked :
    let e := { watchOf .armed .mark 0 with live := { Live.starting with condition := .suspect, run := 1 } }
    (after (.dataRecordCompletion 1#8 2#8 4#8 [21#8]) (plain [e])).delay.take 8 =
      (DataRecord.wire { source := 1#8, channel := 2#8, flags := 5#8, payload := [21#8] }).symbols.reverse := by decide +kernel
theorem test_arm_replies_index_and_state :
    (after (.arm 1#8 7#8 [0#8, 0#8]) (plain [watchOf .loaded .pass 0])).delay.take 9 =
      (WireRecord.symbols { kind := .reply, fixed1 := 1#8, fixed2 := 7#8, fixed3 := 0#8, payload := [0#8, 2#8] }).reverse := by
  decide +kernel
theorem test_identify_replies_the_identifiers :
    ((after (.identify 1#8 7#8 (bytes 9)) (plain [])).delay.drop 2).take 9 =
      ([93#8, 33#8, 6#8, 64#8, 3#8, 64#8, 16#8, 32#8, 64#8].map Symbol.data).reverse := by decide +kernel
theorem test_bad_code_replies_2 : (after (.badCode 21#8 1#8 7#8 []) (plain [])).delay[2]? = some (.data 2#8) := by decide +kernel
theorem test_a_step_takes_the_front_command :
    step { State.reset with pending := [.resetnAssert, .powerLoss] } = exec .resetnAssert { State.reset with pending := [.powerLoss] } := by
  rfl

/-- The state one symbol before a record completes as the 2048th of its train. -/
def lastByteDue (kind : RecordKind) (r : WireRecord) (es : List Entry) : State :=
  let got := r.bytes.dropLast
  { body .active 0#8 2047 es with
    framer := { (body .active 0#8 2047 es).framer with
      position := .record { kind := kind, bytes := got, check := checkOf r.covered, errSeen := false } } }

def lastByte (r : WireRecord) : LineSymbol := .readable (.data (r.bytes.getLast?.getD 0#8))

/-- An entry STALE at a miss limit of 1 is FRESH by the record that the 2048th symbol completes, and STALE anew by the train's end. -/
theorem test_stale_at_the_limit :
    let e := watchOf .armed .pass 0
    let stale := { e with config := { e.config with missLimit := 1 }, live := { e.live with timing := .stale, miss := 1 } }
    let s := lastByteDue .data (record 15#8).wire [stale]
    let o := Occasion.arrival (lastByte (record 15#8).wire)
    after (.stale 0 o) s = after (commandOf o) s ∧ (after (.stale 0 o) s).queue.items.length = 2 := by decide +kernel

/-- An entry LATE with one miss is FRESH by such a record, and LATE anew by the train's end. -/
theorem test_period_at_the_limit :
    let e := watchOf .armed .pass 0
    let s := lastByteDue .data (record 15#8).wire [{ e with live := { e.live with timing := .late, miss := 1 } }]
    let o := Occasion.arrival (lastByte (record 15#8).wire)
    after (.periodExpiry 0 o) s = after (commandOf o) s ∧ ((after (.periodExpiry 0 o) s).entry 0).live.timing = .late := by
  decide +kernel

/-- A capture that the 2048th symbol's START CAPTURE starts with a limit of 1 times out at that train's end. -/
theorem test_capture_started_at_the_limit :
    let r := Request.wire { target := 1#8, tag := 0#8, code := 17#8, operands := [1#8, 2#8, 0#8, 1#8, 1#8] }
    let o := Occasion.arrival (lastByte r)
    after (.captureTimeout o) (lastByteDue .request r []) = after (commandOf o) (lastByteDue .request r []) ∧
    (after (.captureTimeout o) (lastByteDue .request r [])).op.last.cause = .timeout := by decide +kernel

/-- A trial that the 2048th symbol's START TRIAL starts with a limit of 1 is done at that train's end. -/
theorem test_trial_started_at_the_limit :
    let r := Request.wire { target := 1#8, tag := 0#8, code := 19#8, operands := [0#8, 1#8] }
    let s := lastByteDue .request r [watchOf .loaded .pass 0]
    let o := Occasion.arrival (lastByte r)
    after (.trialDone o) s = after (commandOf o) s ∧ (after (.trialDone o) s).op.last.kind = .trial := by decide +kernel

/-- A notice placed at the 2048th symbol, whose break's LINK makes another wait. -/
theorem test_notice_at_the_limit :
    let b := body .active 0#8 2047 []
    let s := { b with alert := { b.alert with noticeEnable := true, noticeWaiting := true, noticeRun := 11 } }
    after .noticePlacement s = after (.symbolArrival (.readable .fill)) s ∧ (after .noticePlacement s).alert.noticeWaiting = true ∧
    (after .noticePlacement s).delay[11]? = some .mn := by decide +kernel

/-! ### Premises met: requests -/

theorem premise_identify : (plain []).addressed 1#8 (bytes 9) ∧ 9 ≤ (bytes 9).length := ⟨plain_addressed (by decide), by decide⟩

theorem premise_readStatus :
    (plain []).addressed 1#8 (bytes 20) ∧ 20 ≤ (bytes 20).length ∧ ∀ f, (plain []).alert.levels.get f ≤ 3 :=
  ⟨plain_addressed (by decide), by decide, by intro f; cases f <;> decide⟩

theorem premise_takeIncidents : (plain []).addressed 1#8 [0#8, 0#8] ∧ 2 ≤ [0#8, 0#8].length := ⟨plain_addressed (by decide), by decide⟩

/-- One image at L 24; entry 63, which has no next, at L 48. -/
theorem premise_readEntry :
    ((plain []).addressed 1#8 (0#8 :: 1#8 :: bytes 22) ∧ (plain []).resolve 0#8 = some 0) ∧
    (plain []).addressed 1#8 (63#8 :: 2#8 :: bytes 46) ∧ (plain []).resolve 63#8 = some 63 :=
  ⟨⟨plain_addressed (by decide), rfl⟩, plain_addressed (by decide), rfl⟩

theorem premise_readSlot : (plain []).addressed 1#8 (15#8 :: []) ∧ (plain []).addressed 1#8 (16#8 :: bytes 47) :=
  ⟨plain_addressed (by decide), plain_addressed (by decide)⟩

theorem premise_setAlerts : (plain []).addressed 1#8 [3#8, 3#8, 3#8, 3#8, 3#8, 3#8, 3#8, 3#8, 1#8] ∧
    (plain []).addressed 1#8 [4#8, 0#8, 0#8, 0#8, 0#8, 0#8, 0#8, 1#8, 0#8] :=
  ⟨plain_addressed (by decide), plain_addressed (by decide)⟩

/-- The three scopes at their values, and the first scope beyond them. -/
theorem premise_clearAlerts :
    (∀ scope ∈ [0#8, 1#8, 2#8, 3#8, 255#8], (plain [tripped .mark false true]).addressed 1#8 [255#8, scope, 0#8]) ∧
    (0#8 : Byte).toNat = 0 ∧ ((1#8 : Byte).toNat = 1 ∧ (plain [tripped .mark false true]).resolve 0#8 = some 0) ∧
    (2#8 : Byte).toNat = 2 ∧ 2 < (3#8 : Byte).toNat :=
  ⟨fun _ _ => plain_addressed (by simp), by decide, ⟨by decide, rfl⟩, by decide, by decide⟩

theorem premise_setWindows : (plain []).addressed 1#8 [7#8, 7#8] ∧ (plain []).addressed 1#8 [8#8, 0#8] :=
  ⟨plain_addressed (by decide), plain_addressed (by decide)⟩

/-- The ends of the ranges of an address byte, with W0 at 0 and W1 at 1. -/
theorem test_addresses_at_the_ends :
    (([0#8, 63#8, 128#8, 135#8, 136#8, 143#8, 64#8, 127#8, 144#8, 255#8] : List Byte).map (plain []).resolve) =
      [some 0, some 63, some 0, some 7, some 8, some 15, none, none, none, none] := by decide +kernel

/-- LOAD ENTRY: a busy entry, a free one with a deglitch count of 0, and one of every template and reaction that passes the checks. -/
theorem premise_loadEntry :
    (plain [watchOf .armed .pass 0]).addressed 1#8 (bytes 13) ∧ ((plain [watchOf .armed .pass 0]).entry 0).state = .armed ∧
    ((plain [onTrial]).entry 0).state = .trial ∧ ((plain []).entry 0).state = .free ∧ ((plain [watchOf .loaded .pass 0]).entry 0).state = .loaded ∧
    ¬ (1 ≤ (0#8 : Byte).toNat) ∧
    ((46#8 : Byte).toNat % 64 + 2 ≤ 48 ∧ 1 ≤ (15#8 : Byte).toNat ∧ (15#8 : Byte).toNat ≤ 15) ∧
    (∀ k ∈ List.range 3, ([.window, .pattern, .delta] : List Template)[k]?.isSome = true) ∧
    (∀ k ∈ List.range 5, ([.pass, .mark, .substitute, .drop, .isolate] : List Reaction)[k]?.isSome = true) :=
  ⟨plain_addressed (by decide), by decide, by decide, by decide, by decide, by decide, by decide, by decide, by decide⟩

/-- LOAD ENTRY with every check passed at its bounds: offset 46 of two bytes, D 15, M 15, slot 15; PATTERN with ISOLATE, and WINDOW with A equal to B. -/
theorem premise_loadEntry_checked :
    (46 + (if (110#8 : Byte).getLsbD 6 then 2 else 1) ≤ 48 ∧ (110#8 : Byte).toNat % 64 = 46 ∧ (17#8 : Byte).toNat % 4 ≤ 2 ∧
      (17#8 : Byte).toNat / 4 % 8 ≤ 4) ∧
    ((15#16 : Word) &&& ~~~(255#16 : Word) = 0#16 ∧ ([.window, .pattern, .delta] : List Template)[(17#8 : Byte).toNat % 4]? = some .pattern ∧
      ([.pass, .mark, .substitute, .drop, .isolate] : List Reaction)[(17#8 : Byte).toNat / 4 % 8]? = some .isolate) ∧
    ((7#16 : Word).toNat ≤ (7#16 : Word).toNat ∧
      ([.window, .pattern, .delta] : List Template)[(0#8 : Byte).toNat % 4]? = some .window) ∧
    ((after (.loadEntry 1#8 0#8 [0#8, 1#8, 2#8, 110#8, 17#8, 0#8, 255#8, 0#8, 15#8, 15#8, 0#8, 15#8, 15#8]) (plain [])).entry 0).state = .loaded := by
  decide +kernel

/-- ARM: each state; the key held by entry 1; the slot filled by entry 1; neither. -/
theorem premise_arm :
    (∀ es : List Entry, (plain es).addressed 1#8 [0#8, 0#8] ∧ (plain es).resolve 0#8 = some 0) ∧ 0 < (plain []).table.entries.length ∧
    (∀ st : EntryState, ((plain [watchOf st .pass 0]).entry 0).state = st) ∧
    (let s := plain [watchOf .loaded .pass 0, watchOf .armed .pass 0];
      (s.entry 1).state = .armed ∧ (s.entry 1).config.source = (s.entry 0).config.source ∧
        (s.entry 1).config.channel = (s.entry 0).config.channel) ∧
    (let other := { watchOf .armed .substitute 15 with config := { (watchOf .armed .substitute 15).config with channel := 3#8 } };
      let s := plain [watchOf .loaded .substitute 15, other];
      (s.entry 0).config.reaction = .substitute ∧ (s.entry 1).state = .armed ∧ (s.entry 1).config.reaction = .substitute ∧
        (s.entry 1).config.slot = (s.entry 0).config.slot ∧ (s.entry 1).config.channel ≠ (s.entry 0).config.channel) ∧
    (∀ j, j ≠ 0 → ¬ ((plain [watchOf .loaded .pass 0]).entry j).state = .armed ∧ ¬ ((plain [watchOf .loaded .pass 0]).entry j).state = .trial) :=
  ⟨fun es => ⟨plain_addressed (by decide), rfl⟩, by decide +kernel, by intro st; cases st <;> rfl, by decide, by decide,
    fun j hj => by rw [plain_entry (by simp; omega)]; simp [Entry.empty]⟩

/-- DISARM, FREE and START TRIAL name an entry of the table, in any of its states. -/
theorem premise_entryRequests :
    ∀ st : EntryState, (plain [watchOf st .pass 0]).addressed 1#8 [0#8, 0#8] ∧ (plain [watchOf st .pass 0]).resolve 0#8 = some 0 ∧
      0 < (plain [watchOf st .pass 0]).table.entries.length ∧ ((plain [watchOf st .pass 0]).entry 0).state = st :=
  fun st => ⟨plain_addressed (by decide), rfl, by cases st <;> decide +kernel, by cases st <;> rfl⟩

/-- LOAD SLOT: slot 16; length 49; a length beyond the bytes that follow; the longest payload there is room for. -/
theorem premise_loadSlot : ∀ operands ∈ [16#8 :: 0#8 :: [], 15#8 :: 49#8 :: [], 0#8 :: 1#8 :: [], (15#8 :: 46#8 :: bytes 46)],
    (plain []).addressed 1#8 operands := by
  intro operands h
  refine plain_addressed ?_
  revert h; revert operands; decide +kernel

/-- SET MODE: in ACTIVE; in OBSERVE with isolation, with an operation, and with neither. -/
theorem premise_setMode :
    (plain []).addressed 1#8 [1#8, 255#8, 0#8] ∧ (plain []).link.mode = .active ∧
    (body .observe 0#8 5 []).addressed 1#8 [1#8, 255#8, 0#8] ∧ (body .observe 0#8 5 []).link.mode ≠ .active ∧
    (body .observe 0#8 5 []).reaction.isolated ≠ true ∧ (body .observe 0#8 5 []).op.slot = .idle ∧
    (runs capturing (body .observe 0#8 5 [])).op.slot ≠ .idle :=
  ⟨plain_addressed (by decide), rfl, ⟨body_readyFor (by decide), by decide, by decide, rfl⟩, by decide, by decide, by decide, by decide⟩

theorem premise_release_restart : (plain []).addressed 1#8 [0#8] ∧ 1 ≤ [0#8].length := ⟨plain_addressed (by decide), by decide⟩

theorem premise_startCapture : (plain []).addressed 1#8 [1#8, 2#8, 2#8, 32#8, 255#8] ∧ (runs capturing (plain [])).op.slot ≠ .idle ∧
    (plain []).addressed 1#8 [1#8, 2#8, 0#8, 33#8, 0#8] :=
  ⟨plain_addressed (by decide), by decide, plain_addressed (by decide)⟩

theorem premise_readCapture : (plain []).addressed 1#8 (bytes 3) ∧ 3 ≤ (bytes 3).length := ⟨plain_addressed (by decide), by decide⟩

/-- START TRIAL: busy with another operation; a limit of 0; the key ARMED; isolation; none of them. -/
theorem premise_startTrial :
    (plain [watchOf .loaded .pass 0]).addressed 1#8 [0#8, 0#8] ∧ (runs capturing (plain [watchOf .loaded .pass 0])).addressed 1#8 [0#8, 1#8] ∧
    (runs capturing (plain [watchOf .loaded .pass 0])).op.slot ≠ .idle ∧ (plain [watchOf .loaded .pass 0]).op.slot = .idle ∧
    (let s := plain [watchOf .loaded .pass 0, watchOf .armed .pass 0];
      (s.entry 1).state = .armed ∧ (s.entry 1).config.source = (s.entry 0).config.source ∧
        (s.entry 1).config.channel = (s.entry 0).config.channel) ∧
    (∀ j, ((plain [watchOf .loaded .pass 0]).entry j).state ≠ .armed) ∧ (plain [watchOf .loaded .pass 0]).reaction.isolated = false :=
  ⟨plain_addressed (by decide), runs_addressed (by decide), by decide, by decide, by decide,
    fun j => by
      rcases j with _ | j
      · decide
      · rw [plain_entry (by simp)]; simp [Entry.empty],
    rfl⟩

/-- ABORT: each content of the slot, with no pending abort on an idle one. -/
theorem premise_abort :
    (∀ slot, (runs slot (plain [])).addressed 1#8 [1#8, 0#8, 0#8] ∧ (runs slot (plain [])).op.slot = slot ∧
      (runs slot (plain [])).op.pendingAbort = .none) ∧
    (∃ c, capturing = .capture c) ∧ ∃ t, trying = .trial t :=
  ⟨fun _ => ⟨runs_addressed (by decide), rfl, rfl⟩, ⟨_, rfl⟩, ⟨_, rfl⟩⟩

/-- A mode, a scope and a condition just outside those coded. -/
theorem premise_refused_operand :
    requestOf (.badCode 14#8 1#8 0#8 [4#8, 0#8, 0#8]) = some { target := 1#8, tag := 0#8, code := 14#8, operands := [4#8, 0#8, 0#8] } ∧
    minimumLength 14#8 ≤ 3 ∧ minimumLength 16#8 ≤ 1 ∧ minimumLength 20#8 ≤ 3 ∧ (plain []).addressed 1#8 [4#8, 0#8, 0#8] ∧
    (plain []).addressed 1#8 [2#8] ∧ (plain []).addressed 1#8 [5#8, 0#8, 0#8] ∧ 3 < (4#8 : Byte).toNat ∧ 1 < (2#8 : Byte).toNat ∧
    4 < (5#8 : Byte).toNat :=
  ⟨rfl, by decide, by decide, by decide, plain_addressed (by decide), plain_addressed (by decide), plain_addressed (by decide), by decide,
    by decide, by decide⟩

/-- A code just outside 1 to 20; a request one byte short; an address in the gap, for an entry and for CLEAR ALERTS with scope 1. -/
theorem premise_refused :
    (requestOf (.badCode 21#8 1#8 0#8 []) = some { target := 1#8, tag := 0#8, code := 21#8, operands := [] } ∧
      (plain []).addressed 1#8 []) ∧
    ((bytes 8).length < minimumLength 1#8 ∧ (plain []).addressed 1#8 (bytes 8)) ∧
    (minimumLength 9#8 ≤ [64#8, 0#8].length ∧ (9#8 : Byte) ∈ [7#8, 8#8, 9#8, 10#8, 11#8, 19#8] ∧
      (plain []).resolve ([64#8, 0#8].getD 0 0#8) = none ∧ (plain []).addressed 1#8 [64#8, 0#8]) ∧
    (minimumLength 4#8 ≤ [0#8, 1#8, 144#8].length ∧ (plain []).resolve ([0#8, 1#8, 144#8].getD 2 0#8) = none ∧
      (plain []).addressed 1#8 [0#8, 1#8, 144#8]) :=
  ⟨⟨rfl, plain_addressed (by decide)⟩, ⟨by decide, plain_addressed (by decide)⟩,
    ⟨by decide, by decide, by decide, plain_addressed (by decide)⟩, by decide, by decide, plain_addressed (by decide)⟩

theorem premise_broadcast :
    requestOf (.release 1#8 0#8 [0#8]) = some { target := 1#8, tag := 0#8, code := 15#8, operands := [0#8] } ∧
    requestOf (.release 0#8 0#8 [0#8]) = some { target := 0#8, tag := 0#8, code := 15#8, operands := [0#8] } ∧
    (15#8 : Byte) ∈ broadcastCodes ∧ (1#8 : Byte) ≠ 0#8 ∧ (plain []).readyFor ([0#8].length + 7) ∧
    exec (.release 1#8 0#8 [0#8]) { plain [] with position := some (1#8 : Byte).toNat } =
      .next (after (.release 1#8 0#8 [0#8]) (plain [])) :=
  ⟨rfl, rfl, by decide, by decide, body_readyFor (by decide), rfl⟩

/-- A broadcast IDENTIFY, and an IDENTIFY to the next slot. -/
theorem premise_notTaken :
    (plain []).readyFor (9 + 7) ∧ (1#8 : Byte) ∉ broadcastCodes ∧ (plain []).position ≠ some (2#8 : Byte).toNat ∧
    requestOf (.identify 2#8 0#8 (bytes 9)) = some { target := 2#8, tag := 0#8, code := 1#8, operands := bytes 9 } :=
  ⟨body_readyFor (by decide), by decide, by decide, rfl⟩

theorem premise_atTheLimit :
    (plain []).addressed 1#8 (bytes 9) ∧ exec (.identify 1#8 0#8 (bytes 9)) (plain []) = .next (after (.identify 1#8 0#8 (bytes 9)) (plain [])) :=
  ⟨plain_addressed (by decide), rfl⟩

/-! ### Premises met: time, arrivals and places -/

def waiting (position : ParsePosition) (count : Nat) (s : State) : State :=
  { s with framer := { s.framer with position := position, symbolCount := count }, position := none }

/-- Outside a train, in the path. -/
def gap (mode : Mode) : State :=
  { State.reset with link := { Link.reset with state := .inline, mode := mode, bypassClosed := false } }

def linked (state : LinkState) (clean held : Nat) (s : State) : State :=
  { s with position := none, link := { s.link with state := state, cleanCount := clean, heldCount := held, bypassClosed := decide (state = .acquire ∨ state = .joinWait ∨ state = .held) } }

def draining (ta : Bool) (delay : List Symbol) : State :=
  { State.reset with link := { Link.reset with bypassClosed := false, draining := true, drainTa := ta }, delay := delay }

/-- A symbol time in each of its cases, and on both sides of the 128th. -/
theorem premise_idle :
    (after .powerLoss State.reset).running = false ∧
    (State.reset.pending = [] ∧ State.reset.running = true ∧ State.reset.link.draining = false ∧ State.reset.framer.signal = .present ∧
      State.reset.framer.silence < 127) ∧
    (let s : State := { State.reset with framer := { Framer.reset with silence := 127 } };
      s.running = true ∧ s.framer.signal = .present ∧ s.framer.silence = 127) ∧
    (after .lossOfSignal State.reset).framer.signal = .lost ∧
    ((draining true []).link.draining = true ∧ (draining true []).running = true ∧ (draining true []).framer.silence < 127) ∧
    ((draining false [.fill]).delay = [.fill] ∧ (draining false [.fill]).link.drainTa = false) ∧
    (draining true [.fill]).delay = [] ++ [.fill] ∧ (draining true [.fill]).link.drainTa = true ∧
    (draining false [.fill, .te]).delay = [.fill] ++ [.te] := by decide +kernel

/-- Without the supply, and with RESETn low. -/
theorem premise_unpowered : (after .powerLoss State.reset).powered = false ∧ (after .resetnAssert State.reset).resetnHigh = false := by
  decide +kernel

theorem premise_loss :
    (gap .active).running = true ∧ (gap .active).link.draining = false ∧ (gap .active).framer.signal = .present ∧
    (draining true [.fill]).running = true ∧ (draining true [.fill]).link.draining = true ∧
    (draining true [.fill]).framer.signal = .present ∧ (after .lossOfSignal (gap .active)).framer.signal = .lost ∧
    (after .lossOfSignal (gap .active)).link.draining = true ∧ (after .lossOfSignal State.reset).link.draining = false := by
  decide +kernel

theorem premise_bypassed : State.reset.inPath = false ∧ (draining true [.fill]).inPath = false := by decide +kernel

/-- A state whose four checks are decided is lawful. -/
theorem lawful_plain_empty : (plain []).lawful :=
  State.lawful_of_checks (by decide +kernel) (by decide +kernel) (by decide +kernel) (by decide +kernel)

theorem lawful_gap : (gap .active).lawful :=
  State.lawful_of_checks (by decide +kernel) (by decide +kernel) (by decide +kernel) (by decide +kernel)

theorem premise_inPath :
    (plain []).lawful ∧ (plain []).running = true ∧ (plain []).inPath = true ∧ (plain []).delay = List.replicate 63 .fill ++ [.fill] ∧
    ((gap .active).lawful ∧ (gap .active).framer.position = .outside ∧ (gap .active).link.state = .inline ∧
      LineSymbol.taken (.readable .fill) = .fill) :=
  ⟨lawful_plain_empty, by decide, by decide, by decide, lawful_gap, by decide, by decide, by decide⟩

theorem premise_trainStart : (gap .active).running = true ∧ (gap .active).framer.position = .outside ∧ (plain []).running = true := by
  decide

/-- Each place of the header and of the status area, with the slot counts at the ends of their range and just outside it; and the byte at
symbol count 4 of an unreadable train. -/
theorem premise_header :
    (∀ p ∈ [ParsePosition.header 1, .header 2, .header 3, .unread],
      (waiting p 3 (plain [])).running = true ∧ (waiting p 3 (plain [])).framer.symbolCount < 2047 ∧
        (waiting p 3 (plain [])).framer.position = p ∧ (waiting p 3 (plain [])).framer.symbolCount = 3) ∧
    (let s := waiting (.status 1) 4 { plain [] with framer := { (plain []).framer with slotCount := 2 } };
      s.framer.position = .status 1 ∧ 1 < s.framer.slotCount) ∧
    (1 ≤ (1#8 : Byte).toNat ∧ (31#8 : Byte).toNat ≤ 31 ∧ (0#8 : Byte).toNat = 0 ∧ 31 < (32#8 : Byte).toNat) ∧
    LineSymbol.taken .unreadable ∈ [Symbol.fill, .err, .md, .mq, .ma, .mn] := by
  decide +kernel

/-- RESETn low with the supply: the blocks hold their reset values, and a step goes on from there. -/
theorem premise_heldAtReset :
    (after .resetnAssert (plain [])).powered = true ∧ (after .resetnAssert (plain [])).resetnHigh = false ∧
    (after .resetnAssert (plain [])) = { State.reset with resetnHigh := false } ∧
    ∃ t, step (after .resetnAssert (plain [])) = .next t ∧ t = { State.reset with resetnHigh := false } :=
  ⟨by decide +kernel, by decide +kernel, by decide +kernel, _, rfl, by decide +kernel⟩

/-- The last status byte of trains with one slot and with 31; a part in the path and one that is bypassed. -/
theorem premise_headerRead :
    (let s := waiting (.status 1) 4 (plain []);
      s.running = true ∧ s.framer.position = .status 1 ∧ s.framer.slotCount = 1 ∧ s.framer.symbolCount < 2047 ∧ s.inPath = true ∧
        (([] : List Byte) ++ [255#8])[0]? = some 255#8 ∧ 255#8 ∉ ([] : List Byte) ++ [254#8]) ∧
    (let s := linked .held 0 3 (waiting (.status 31) 34 { plain [] with framer := { (plain []).framer with slotCount := 31 } });
      s.running = true ∧ s.framer.position = .status 31 ∧ s.framer.slotCount = 31 ∧ s.inPath = false ∧ s.link.state = .held) := by
  decide +kernel

theorem premise_stray :
    (plain []).lawful ∧ (plain []).running = true ∧ (plain []).framer.position = .body ∧ (plain []).framer.symbolCount < 2047 ∧
    LineSymbol.taken .unreadable = .err ∧
    ((gap .active).lawful ∧ (gap .active).framer.position = .outside ∧ LineSymbol.taken (.readable .te) ≠ .fill ∧
      LineSymbol.taken (.readable .te) ≠ .ts) :=
  ⟨lawful_plain_empty, by decide, by decide, by decide, by decide, lawful_gap, by decide, by decide, by decide⟩

def inRecord (got : List Byte) (check : Word) (err : Bool) : State :=
  waiting (.record { kind := .data, bytes := got, check := check, errSeen := err }) 12 (plain [])

theorem lawful_inRecord : (inRecord [0#8, 1#8, 2#8, 0#8, 0#8] 1#16 false).lawful ∧ (inRecord [] 65535#16 false).lawful :=
  ⟨State.lawful_of_checks (by decide +kernel) (by decide +kernel) (by decide +kernel) (by decide +kernel),
    State.lawful_of_checks (by decide +kernel) (by decide +kernel) (by decide +kernel) (by decide +kernel)⟩

/-- A wrong last check byte, an ERR there, a length of 49, and a mark inside the record. -/
theorem premise_damaged :
    (let s := inRecord [0#8, 1#8, 2#8, 0#8, 0#8] 1#16 false;
      s.lawful ∧ s.running = true ∧ s.framer.symbolCount < 2047 ∧
        [0#8, 1#8, 2#8, 0#8, 0#8].length = ([0#8, 1#8, 2#8, 0#8, 0#8].getD 0 0#8).toNat + 5 ∧ 1#16 ≠ (0#8 : Byte) ++ (2#8 : Byte)) ∧
    ((inRecord [] 65535#16 false).lawful ∧ (LineSymbol.readable (.data 49#8)).taken = .data 49#8 ∧ 48 < (49#8 : Byte).toNat) ∧
    (LineSymbol.readable .mq).taken = RecordKind.request.mark :=
  ⟨⟨lawful_inRecord.1, by decide, by decide, by decide, by decide⟩, ⟨lawful_inRecord.2, by decide, by decide⟩, by decide⟩

/-- A record cut by each symbol that is no byte and no mark, and SKIP ended and not ended. -/
theorem premise_cut :
    (inRecord [] 65535#16 false).running = true ∧
    (∀ x ∈ [Symbol.fill, .te, .ta, .ts], (LineSymbol.readable x).taken ∈ [Symbol.fill, .te, .ta, .ts]) ∧
    (waiting .skip 12 (plain [])).running = true ∧ (waiting .skip 12 (plain [])).framer.position = .skip ∧
    (waiting .skip 12 (plain [])).framer.symbolCount < 2047 := by decide +kernel

theorem lawful_atLimit : (body .active 0#8 2047 []).lawful :=
  State.lawful_of_checks (by decide +kernel) (by decide +kernel) (by decide +kernel) (by decide +kernel)

theorem premise_limit :
    let s := body .active 0#8 2047 [];
    s.lawful ∧ s.running = true ∧ s.framer.position ≠ .outside ∧ s.framer.symbolCount = 2047 ∧
      (LineSymbol.readable .fill).taken ∉ [.te, .ta, .ts] ∧ s.inPath = true ∧ s.queue.items.length ≤ 29 ∧ s.trainFlag 0 = false :=
  ⟨lawful_atLimit, by decide +kernel⟩

theorem lawful_acquire : (linked .acquire 1 0 (body .observe 0#8 5 [])).lawful ∧ (linked .acquire 0 0 (body .observe 0#8 5 [])).lawful ∧
    (linked .acquire 1 0 (waiting .unread 1 (body .observe 0#8 5 []))).lawful :=
  ⟨State.lawful_of_checks (by decide +kernel) (by decide +kernel) (by decide +kernel) (by decide +kernel),
    State.lawful_of_checks (by decide +kernel) (by decide +kernel) (by decide +kernel) (by decide +kernel),
    State.lawful_of_checks (by decide +kernel) (by decide +kernel) (by decide +kernel) (by decide +kernel)⟩

/-- A clean train with the count at 1 and at 0, and a train that is not clean. -/
theorem premise_joinWait :
    (let s := linked .acquire 1 0 (body .observe 0#8 5 []);
      s.lawful ∧ s.running = true ∧ s.link.state = .acquire ∧ s.framer.position = .body ∧ s.framer.trainFaulted = false ∧ s.link.cleanCount = 1) ∧
    (let s := linked .acquire 0 0 (body .observe 0#8 5 []);
      s.lawful ∧ s.framer.position = .body ∧ s.link.cleanCount = 0) ∧
    (let s := linked .acquire 1 0 (waiting .unread 1 (body .observe 0#8 5 []));
      s.lawful ∧ s.framer.position ≠ .outside ∧ s.framer.position ≠ .body) :=
  ⟨⟨lawful_acquire.1, by decide⟩, ⟨lawful_acquire.2.1, by decide⟩, lawful_acquire.2.2, by decide⟩

theorem premise_join :
    let s := linked .joinWait 0 0 (plain []);
    s.running = true ∧ s.link.state = .joinWait ∧ s.framer.position ≠ .outside ∧ s.link.draining = false ∧
      { s.link with draining := true }.draining = true := by decide +kernel

/-- Ready to leave, and kept by one symbol that is not FILL. -/
theorem premise_leave :
    let s := linked .leaveWait 0 3 (gap .observe);
    s.running = true ∧ s.link.state = .leaveWait ∧ s.link.draining = false ∧ s.framer.position = .outside ∧
      s.delay = List.replicate 63 .fill ++ [.fill] ∧ (List.replicate 63 Symbol.fill).length = 63 ∧ s.op.slot = .idle ∧
      (.te :: List.replicate 62 Symbol.fill).length = 63 ∧ (.te :: List.replicate 62 Symbol.fill) ≠ List.replicate 63 Symbol.fill := by
  decide +kernel

theorem lawful_held : (linked .held 0 1 (body .observe 0#8 5 [])).lawful ∧ (linked .held 0 255 (body .observe 0#8 5 [])).lawful :=
  ⟨State.lawful_of_checks (by decide +kernel) (by decide +kernel) (by decide +kernel) (by decide +kernel),
    State.lawful_of_checks (by decide +kernel) (by decide +kernel) (by decide +kernel) (by decide +kernel)⟩

theorem ends_by_te {s : State} (h : s.framer.position ≠ .outside) : s.endsTrainAt (.arrival (.readable .te)) ∧ s.endsTrainAt .silence :=
  ⟨⟨h, Or.inl (by decide)⟩, h, trivial⟩

theorem premise_held :
    (let s := linked .held 0 1 (body .observe 0#8 5 []);
      s.lawful ∧ s.running = true ∧ s.link.state = .held ∧ s.endsTrainAt .silence ∧ s.link.heldCount = 1) ∧
    (let s := linked .held 0 255 (body .observe 0#8 5 []);
      s.lawful ∧ s.endsTrainAt (.arrival (.readable .te)) ∧ s.link.heldCount ≠ 1) :=
  ⟨⟨lawful_held.1, by decide, by decide, (ends_by_te (by decide)).2, by decide⟩, lawful_held.2, (ends_by_te (by decide)).1, by decide⟩

/-! ### Premises met: train ends and records -/

theorem premise_trainEnd :
    (plain []).lawful ∧ (plain []).running = true ∧ (plain []).inPath = true ∧ (plain []).framer.position ≠ .outside ∧
    (plain []).trainFlag 0 = false ∧ (body .active 1#8 5 []).trainFlag 0 = true :=
  ⟨lawful_plain_empty, by decide, by decide, by decide, by decide, by decide⟩

/-- Every way a train ends in the path: by a mark, at the 2048th symbol, by silence; and a TE that reports nothing. -/
theorem premise_otherEnds :
    (body .active 0#8 2047 []).lawful ∧ (body .active 0#8 2047 []).endsTrainAt (.arrival (.readable .fill)) ∧
    (plain []).endsTrainAt (.arrival (.readable .te)) ∧ (plain []).endsTrainAt .silence ∧ (plain []).endCauses .te = [] ∧
    (plain []).endCauses .ta = [4] ∧ (inRecord [] 65535#16 false).endCauses .ts = [1, 4] ∧
    (waiting .unread 1 (plain [])).endCauses .te = [3] ∧
    (plain []).queue.items.length + 2 ≤ 32 :=
  ⟨lawful_atLimit, ⟨by decide, Or.inr ⟨rfl, rfl⟩⟩, (ends_by_te (by decide)).1, (ends_by_te (by decide)).2, by decide, by decide, by decide,
    by decide, by decide⟩

def late : Entry := { watchOf .armed .pass 0 with live := { Live.starting with timing := .late, miss := 1 } }

theorem lawful_entries :
    (plain [watchOf .armed .pass 0]).lawful ∧ (plain [late]).lawful ∧ (plain [watchOf .armed .substitute 0]).lawful ∧
    (plain [tripped .substitute true false]).lawful ∧ (plain [tripped .mark false true]).lawful ∧
    (runs trying (plain [onTrial])).lawful ∧ (runs capturing (plain [])).lawful :=
  ⟨State.lawful_of_checks (by decide +kernel) (by decide +kernel) (by decide +kernel) (by decide +kernel),
    State.lawful_of_checks (by decide +kernel) (by decide +kernel) (by decide +kernel) (by decide +kernel),
    State.lawful_of_checks (by decide +kernel) (by decide +kernel) (by decide +kernel) (by decide +kernel),
    State.lawful_of_checks (by decide +kernel) (by decide +kernel) (by decide +kernel) (by decide +kernel),
    State.lawful_of_checks (by decide +kernel) (by decide +kernel) (by decide +kernel) (by decide +kernel),
    State.lawful_of_checks (by decide +kernel) (by decide +kernel) (by decide +kernel) (by decide +kernel),
    State.lawful_of_checks (by decide +kernel) (by decide +kernel) (by decide +kernel) (by decide +kernel)⟩

/-- Two entries go STALE at one end, from a queue with just room for both and the report of cause 5, and from a full one. -/
theorem premise_staleRoom :
    let second := { late with config := { late.config with channel := 3#8 } }
    let s := plain [late, second]
    ((List.range 1).countP fun j => (s.entry j).goesStale) = 1 ∧ 29 + 1 + 1 < 32 ∧ s.lawful ∧ (s.entry 1).goesStale = true :=
  ⟨by decide, by decide,
    State.lawful_of_checks (by decide +kernel) (by decide +kernel) (by decide +kernel) (by decide +kernel), by decide⟩

/-- A first miss below the limit of 2, and the second at it. -/
theorem premise_period :
    (let s := plain [watchOf .armed .pass 0];
      s.lawful ∧ s.running = true ∧ s.inPath = true ∧ s.endsTrainAt .silence ∧ s.trainFlag 1 = false ∧ (s.entry 0).state = .armed ∧
        0 < (s.entry 0).config.period ∧ (s.entry 0).live.timing ≠ .stale ∧ (s.entry 0).live.since + 1 = (s.entry 0).config.period ∧
        (s.entry 0).live.miss + 1 < (s.entry 0).config.missLimit) ∧
    (let s := plain [late];
      s.lawful ∧ s.endsTrainAt .silence ∧ (s.entry 0).live.timing ≠ .stale ∧ (s.entry 0).live.since + 1 = (s.entry 0).config.period ∧
        (s.entry 0).live.miss + 1 = (s.entry 0).config.missLimit ∧ s.queue.items.length = 0) :=
  ⟨⟨lawful_entries.1, by decide, by decide, (ends_by_te (by decide)).2, by decide⟩, lawful_entries.2.1, (ends_by_te (by decide)).2, by decide⟩

theorem premise_captureTimeout :
    ∃ c, let s := runs capturing (plain []);
      s.lawful ∧ s.running = true ∧ s.inPath = true ∧ s.endsTrainAt .silence ∧ s.op.slot = .capture c ∧ c.without + 1 = c.limit :=
  ⟨_, lawful_entries.2.2.2.2.2.2, by decide, by decide, (ends_by_te (by decide)).2, rfl, by decide⟩

theorem premise_trialDone :
    ∃ r, let s := runs trying (plain [onTrial]);
      s.lawful ∧ s.running = true ∧ s.inPath = true ∧ s.endsTrainAt .silence ∧ s.trainFlag 1 = false ∧ s.op.slot = .trial r ∧
        r.counted + 1 = r.limit :=
  ⟨_, lawful_entries.2.2.2.2.2.1, by decide, by decide, (ends_by_te (by decide)).2, by decide, rfl, by decide⟩

/-- The twelfth FILL of a run with a notice waiting, and the eleventh. -/
theorem premise_notice :
    let s : State := { plain [] with alert := { (plain []).alert with noticeEnable := true, noticeWaiting := true, noticeRun := 11 } };
    s.running = true ∧ s.inPath = true ∧ s.link.draining = false ∧ s.framer.position = .body ∧ s.framer.symbolCount < 2047 ∧
      s.alert.noticeWaiting = true ∧ 11 ≤ s.alert.noticeRun ∧ ({ s.alert with noticeRun := 10 } : AlertUnit).noticeRun < 11 := by
  decide +kernel

/-- A capture in a FREEZE train, and one in a table that holds no working entry. -/
theorem premise_captureRecord :
    (runs capturing (plain [])).lawful ∧ (runs capturing (plain [])).readyFor ((record 15#8).payload.length + 7) ∧
    (record 15#8).payload.length ≤ 48 ∧ (body .active 2#8 5 []).framer.flags.getLsbD 1 = true ∧
    (∀ i, ((runs capturing (plain [])).entry i).state ≠ .armed ∧ ((runs capturing (plain [])).entry i).state ≠ .trial) :=
  ⟨lawful_entries.2.2.2.2.2.2, body_readyFor (es := []) (by decide), by decide, by decide,
    fun i => by
      have h : (runs capturing (plain [])).entry i = Entry.empty := plain_entry (es := []) (by simp)
      rw [h]; simp [Entry.empty]⟩

/-- Good and bad values at the template's bounds, for an entry that is CONFORMING, SUSPECT at its last record, and TRIPPED. -/
theorem premise_armedRecord :
    (let s := plain [watchOf .armed .substitute 0];
      s.lawful ∧ s.readyFor ((record 20#8).payload.length + 7) ∧ s.framer.flags.getLsbD 1 = false ∧ (s.entry 0).state = .armed ∧
        (s.entry 0).config.source = (record 20#8).source ∧ (s.entry 0).config.channel = (record 20#8).channel ∧
        (s.entry 0).accepts [20#8] = true ∧ (s.entry 0).accepts [21#8] = false ∧ (s.entry 0).accepts [9#8] = false ∧
        (s.entry 0).accepts [] = false ∧ (s.entry 0).live.condition ≠ .tripped ∧
        (s.entry 0).live.run + 1 < (s.entry 0).config.deglitch) ∧
    (let s := plain [tripped .mark false true];
      s.lawful ∧ (s.entry 0).live.condition = .tripped ∧ (s.entry 0).accepts [10#8] = true) :=
  ⟨⟨lawful_entries.2.2.1, body_readyFor (by decide), by decide⟩, lawful_entries.2.2.2.2.1, by decide⟩

theorem lawful_suspect :
    (plain [{ watchOf .armed .isolate 0 with live := { Live.starting with condition := .suspect, run := 1 } }]).lawful :=
  State.lawful_of_checks (by decide +kernel) (by decide +kernel) (by decide +kernel) (by decide +kernel)

theorem premise_trip :
    let s := plain [{ watchOf .armed .isolate 0 with live := { Live.starting with condition := .suspect, run := 1 } }];
    s.lawful ∧ s.readyFor (1 + 7) ∧ (s.entry 0).live.run + 1 = (s.entry 0).config.deglitch ∧ (s.entry 0).accepts [21#8] = false ∧
      s.link.mode = .active ∧ s.reaction.isolated = false :=
  ⟨lawful_suspect, body_readyFor (by decide), by decide⟩

theorem premise_trialRecord :
    ∃ r, let s := runs trying (plain [onTrial]);
      s.lawful ∧ s.readyFor ((record 9#8).payload.length + 7) ∧ s.framer.flags.getLsbD 1 = false ∧ (s.entry 0).state = .trial ∧
        (s.entry 0).config.source = (record 9#8).source ∧ (s.entry 0).config.channel = (record 9#8).channel ∧
        (s.entry 0).live.trial = some r :=
  ⟨_, lawful_entries.2.2.2.2.2.1, body_readyFor (es := [onTrial]) (by decide), by decide, by decide, by decide, by decide, rfl⟩

theorem premise_reaction :
    let s := plain [tripped .substitute true false];
    s.lawful ∧ s.readyFor ((record 20#8).payload.length + 7) ∧ s.link.mode = .active ∧ (s.entry 0).state = .armed ∧
      (s.entry 0).config.latch = true ∧
      exec (.dataRecordCompletion 1#8 2#8 0#8 [20#8]) s = .next (after (.dataRecordCompletion 1#8 2#8 0#8 [20#8]) s) :=
  ⟨lawful_entries.2.2.2.1, body_readyFor (by decide), by decide, by decide, by decide, rfl⟩

theorem lawful_observe : (body .observe 0#8 5 []).lawful ∧ (body .active 2#8 5 []).lawful :=
  ⟨State.lawful_of_checks (by decide +kernel) (by decide +kernel) (by decide +kernel) (by decide +kernel),
    State.lawful_of_checks (by decide +kernel) (by decide +kernel) (by decide +kernel) (by decide +kernel)⟩

/-- OBSERVE, FREEZE and the bypass. -/
theorem premise_untouched :
    ((body .observe 0#8 5 []).lawful ∧ (body .observe 0#8 5 []).readyFor (48 + 7) ∧ (body .observe 0#8 5 []).link.mode = .observe) ∧
    ((body .active 2#8 5 []).lawful ∧ (body .active 2#8 5 []).readyFor (48 + 7) ∧ (body .active 2#8 5 []).framer.flags.getLsbD 1 = true) ∧
    (State.reset.lawful ∧ State.reset.inPath = false ∧ State.reset.link.draining = false) :=
  ⟨⟨lawful_observe.1, body_readyFor (by decide), rfl⟩, ⟨lawful_observe.2, body_readyFor (by decide), by decide⟩,
    test_reset_is_lawful, by decide, by decide⟩

/-- The four invariants hold in a state with a trip, a running trial's table or a capture, and a step goes on from it. -/
theorem premise_invariants :
    (plain [tripped .substitute true false]).lawful ∧ ∃ t, step (plain [tripped .substitute true false]) = .next t :=
  ⟨lawful_entries.2.2.2.1, _, rfl⟩

end Sys2Proof.Tests
end

section
/-! PROOF. The Watch Table: each entry's law in named parts, and the operations on one entry that keep it (R44, R49 to R63, R72 to R95). -/

namespace Sys2Proof.Machine

/-! ### The law of one entry, part by part -/

/-- The configuration fields stand in the ranges of R44 to R48. -/
def EntryConfig.inRange (c : EntryConfig) : Prop :=
  c.offset + (if c.wide = true then 2 else 1) ≤ 48 ∧ 1 ≤ c.deglitch ∧ c.deglitch ≤ 15 ∧ 1 ≤ c.missLimit ∧ c.missLimit ≤ 15 ∧
    c.period ≤ 255 ∧ c.slot ≤ 15

/-- The run count and the recovered flag go with the condition (R49, R53). -/
def Live.conditionLawful (deglitch : Nat) (l : Live) : Prop :=
  match l.condition with
  | .conforming => l.run = 0 ∧ l.recovered = false
  | .suspect => 1 ≤ l.run ∧ l.run < deglitch ∧ l.recovered = false
  | .tripped => l.run = deglitch

/-- The miss count goes with the timing state (R50, R53). -/
def Live.timingLawful (missLimit : Nat) (l : Live) : Prop :=
  match l.timing with
  | .fresh => l.miss = 0
  | .late => 1 ≤ l.miss ∧ l.miss < missLimit
  | .stale => l.miss = missLimit ∧ l.since = 0

/-- The trial counts stand in their ranges (R52, R89). -/
def TrialResults.inRange (r : TrialResults) : Prop := r.seen ≤ 65535 ∧ r.nonconforming ≤ r.seen ∧ r.longestRun ≤ 255

/-- The parts of `Entry.lawful` by name, so that a proof about one field's change supplies that field's part only. -/
structure Entry.LawParts (e : Entry) : Prop where
  emptyIfFree : e.state = .free → e = Entry.empty
  configInRange : e.state ≠ .free → e.config.inRange
  condition : e.live.conditionLawful e.config.deglitch
  timing : e.live.timingLawful e.config.missLimit
  timed : if e.config.period = 0 ∨ e.state ≠ .armed then e.live.timing = .fresh ∧ e.live.since = 0
    else e.live.since < e.config.period
  loaded : e.state = .loaded → e.live.condition = .conforming
  previous : e.live.previous.isSome = true → e.config.kind = .delta
  trips : e.live.trips ≤ 255
  nonconforming : e.live.nonconforming ≤ 65535
  armed : e.state = .armed → e.live.trial = none
  onTrial : e.state = .trial → ∃ r, e.live.trial = some r ∧ r.incomplete = true
  results : ∀ r, e.live.trial = some r → r.inRange

theorem Entry.lawful_iff (e : Entry) : e.lawful ↔ e.LawParts :=
  ⟨fun ⟨h1, h2, h3, h4, h5, h6, h7, h8, h9, h10, h11, h12⟩ => ⟨h1, h2, h3, h4, h5, h6, h7, h8, h9, h10, h11, h12⟩,
    fun ⟨h1, h2, h3, h4, h5, h6, h7, h8, h9, h10, h11, h12⟩ => ⟨h1, h2, h3, h4, h5, h6, h7, h8, h9, h10, h11, h12⟩⟩

/-- Outside ARMED the timing fields rest (R94). -/
theorem Entry.LawParts.untimed {e : Entry} (h : e.LawParts) (hs : e.state ≠ .armed) :
    e.live.timing = .fresh ∧ e.live.since = 0 ∧ e.live.miss = 0 := by
  have ht := h.timed
  rw [if_pos (.inr hs)] at ht
  have hm := h.timing
  rw [Live.timingLawful, ht.1] at hm
  exact ⟨ht.1, ht.2, hm⟩

/-- Entries with FRESH timing fields meet the timing law in every state. -/
theorem Live.since_fresh {l : Live} {c : EntryConfig} {st : EntryState} (ht : l.timing = .fresh) (hs : l.since = 0) :
    if c.period = 0 ∨ st ≠ .armed then l.timing = .fresh ∧ l.since = 0 else l.since < c.period := by
  split
  · exact ⟨ht, hs⟩
  · rename_i h; rw [hs]; omega

theorem saturate_le {limit n : Nat} (h : n ≤ limit) : saturate limit n ≤ limit := by
  unfold saturate; split <;> omega

/-! ### The steps of judgement on the live fields -/

@[simp] theorem Live.refreshed_frame (l : Live) :
    l.refreshed.condition = l.condition ∧ l.refreshed.recovered = l.recovered ∧ l.refreshed.run = l.run ∧
      l.refreshed.timing = .fresh ∧ l.refreshed.since = 0 ∧ l.refreshed.miss = 0 ∧ l.refreshed.previous = l.previous ∧
      l.refreshed.trips = l.trips ∧ l.refreshed.nonconforming = l.nonconforming ∧ l.refreshed.trial = l.trial :=
  ⟨rfl, rfl, rfl, rfl, rfl, rfl, rfl, rfl, rfl, rfl⟩

@[simp] theorem Live.remember_frame (k : Template) (v : Option Word) (l : Live) :
    (l.remember k v).condition = l.condition ∧ (l.remember k v).recovered = l.recovered ∧ (l.remember k v).run = l.run ∧
      (l.remember k v).timing = l.timing ∧ (l.remember k v).since = l.since ∧ (l.remember k v).miss = l.miss ∧
      (l.remember k v).trips = l.trips ∧ (l.remember k v).nonconforming = l.nonconforming ∧
      (l.remember k v).trial = l.trial := by
  unfold Live.remember; split <;> simp

@[simp] theorem Live.countNonconforming_frame (ok : Bool) (l : Live) :
    (l.countNonconforming ok).condition = l.condition ∧ (l.countNonconforming ok).recovered = l.recovered ∧
      (l.countNonconforming ok).run = l.run ∧ (l.countNonconforming ok).timing = l.timing ∧
      (l.countNonconforming ok).since = l.since ∧ (l.countNonconforming ok).miss = l.miss ∧
      (l.countNonconforming ok).previous = l.previous ∧ (l.countNonconforming ok).trips = l.trips ∧
      (l.countNonconforming ok).trial = l.trial := by
  unfold Live.countNonconforming; split <;> simp

@[simp] theorem Live.moveCondition_frame (d : Nat) (ok : Bool) (l : Live) :
    (l.moveCondition d ok).timing = l.timing ∧ (l.moveCondition d ok).since = l.since ∧
      (l.moveCondition d ok).miss = l.miss ∧ (l.moveCondition d ok).previous = l.previous ∧
      (l.moveCondition d ok).trips = l.trips ∧ (l.moveCondition d ok).nonconforming = l.nonconforming ∧
      (l.moveCondition d ok).trial = l.trial := by
  unfold Live.moveCondition
  repeat' split
  all_goals simp

@[simp] theorem Live.countTrip_frame (b : Bool) (l : Live) :
    (l.countTrip b).condition = l.condition ∧ (l.countTrip b).recovered = l.recovered ∧ (l.countTrip b).run = l.run ∧
      (l.countTrip b).timing = l.timing ∧ (l.countTrip b).since = l.since ∧ (l.countTrip b).miss = l.miss ∧
      (l.countTrip b).previous = l.previous ∧ (l.countTrip b).nonconforming = l.nonconforming ∧
      (l.countTrip b).trial = l.trial := by
  unfold Live.countTrip; split <;> simp

/-- The condition's law looks at three fields only. -/
theorem Live.conditionLawful_congr {d : Nat} {l l' : Live} (hc : l'.condition = l.condition) (hr : l'.run = l.run)
    (hv : l'.recovered = l.recovered) : l'.conditionLawful d ↔ l.conditionLawful d := by
  unfold Live.conditionLawful; rw [hc, hr, hv]

@[simp] theorem Live.refreshed_conditionLawful (d : Nat) (l : Live) : l.refreshed.conditionLawful d ↔ l.conditionLawful d :=
  Iff.rfl

@[simp] theorem Live.remember_conditionLawful (d : Nat) (k : Template) (v : Option Word) (l : Live) :
    (l.remember k v).conditionLawful d ↔ l.conditionLawful d :=
  Live.conditionLawful_congr (by simp) (by simp) (by simp)

@[simp] theorem Live.countNonconforming_conditionLawful (d : Nat) (ok : Bool) (l : Live) :
    (l.countNonconforming ok).conditionLawful d ↔ l.conditionLawful d :=
  Live.conditionLawful_congr (by simp) (by simp) (by simp)

@[simp] theorem Live.countTrip_conditionLawful (d : Nat) (b : Bool) (l : Live) :
    (l.countTrip b).conditionLawful d ↔ l.conditionLawful d :=
  Live.conditionLawful_congr (by simp) (by simp) (by simp)

/-- The timing law looks at three fields only. -/
theorem Live.timingLawful_congr {m : Nat} {l l' : Live} (ht : l'.timing = l.timing) (hm : l'.miss = l.miss)
    (hs : l'.since = l.since) : l'.timingLawful m ↔ l.timingLawful m := by
  unfold Live.timingLawful; rw [ht, hm, hs]

/-- The condition table keeps run, condition and recovered flag together (R53, R78 to R80). -/
theorem Live.moveCondition_lawful {d : Nat} {l : Live} (h : l.conditionLawful d) (ok : Bool) :
    (l.moveCondition d ok).conditionLawful d := by
  unfold Live.conditionLawful at h
  unfold Live.moveCondition
  cases hc : l.condition <;> rw [hc] at h <;> cases ok
  case tripped.true | tripped.false => simpa [Live.conditionLawful, hc] using h
  case conforming.true | suspect.true => simp [Live.conditionLawful]
  case conforming.false | suspect.false =>
    by_cases hr : l.run + 1 < d <;> simp [Live.conditionLawful, hr]

/-- A previous value is remembered for DELTA only (R51, R76). -/
theorem Live.remember_previous {k : Template} {v : Option Word} {l : Live} (h : l.previous.isSome = true → k = .delta)
    (hs : (l.remember k v).previous.isSome = true) : k = .delta := by
  revert hs
  unfold Live.remember
  split
  · exact fun _ => rfl
  · exact h

/-- The nonconforming count saturates (R77). -/
theorem Live.countNonconforming_le {l : Live} (h : l.nonconforming ≤ 65535) (ok : Bool) :
    (l.countNonconforming ok).nonconforming ≤ 65535 := by
  unfold Live.countNonconforming
  split
  · exact h
  · exact saturate_le h

/-- The trip count saturates (R82). -/
theorem Live.countTrip_le {l : Live} (h : l.trips ≤ 255) (b : Bool) : (l.countTrip b).trips ≤ 255 := by
  unfold Live.countTrip
  split
  · exact saturate_le h
  · exact h

/-- The trial counts stay in their ranges (R89). -/
theorem TrialResults.count_inRange {r : TrialResults} (h : r.inRange) (ok : Bool) {streak : Nat} (hs : streak ≤ 255) :
    (r.count ok streak).inRange := by
  obtain ⟨hseen, hnon, hrun⟩ := h
  refine ⟨saturate_le hseen, ?_, ?_⟩
  · unfold TrialResults.count saturate
    cases ok <;> dsimp only <;> repeat' split
    all_goals omega
  · unfold TrialResults.count
    dsimp only
    split
    · exact hs
    · exact hrun

/-! ### What is done to one entry -/

theorem Entry.empty_lawParts : Entry.empty.LawParts := (Entry.lawful_iff _).1 Entry.empty_lawful

/-- An ARMED entry after a judged record (R72 to R82). -/
theorem Entry.LawParts.judged {e : Entry} (h : e.LawParts) (ha : e.state = .armed) (payload : List Byte) :
    ({ e with live := e.judgedLive payload } : Entry).LawParts :=
  { h with
    emptyIfFree := fun hf => absurd (ha.symm.trans hf) (by nofun)
    condition := by
      simpa [Entry.judgedLive] using Live.moveCondition_lawful (by simpa using h.condition) _
    timing := by simp [Live.timingLawful, Entry.judgedLive]
    timed := Live.since_fresh (by simp [Entry.judgedLive]) (by simp [Entry.judgedLive])
    loaded := fun hl => absurd (ha.symm.trans hl) (by nofun)
    previous := fun hp => Live.remember_previous (l := e.live.refreshed) h.previous (by simpa [Entry.judgedLive] using hp)
    trips := Live.countTrip_le (by simpa using h.trips) _
    nonconforming := by simpa [Entry.judgedLive] using Live.countNonconforming_le (by simpa using h.nonconforming) _
    armed := fun _ => by simpa [Entry.judgedLive] using h.armed ha
    onTrial := fun ht => absurd (ha.symm.trans ht) (by nofun)
    results := fun r hr => h.results r (by simpa [Entry.judgedLive] using hr) }

/-- The entry in TRIAL after a judged record (R88, R89). -/
theorem Entry.LawParts.judgedOnTrial {e : Entry} (h : e.LawParts) (ht : e.state = .trial) {streak : Nat}
    (hs : streak ≤ 255) (payload : List Byte) : ({ e with live := e.trialLive streak payload } : Entry).LawParts :=
  { h with
    emptyIfFree := fun hf => absurd (ht.symm.trans hf) (by nofun)
    condition :=
      Live.moveCondition_lawful (l := e.live.remember e.config.kind (e.config.value payload)) (by simpa using h.condition)
        (e.verdict payload).ok
    timing := (Live.timingLawful_congr (by simp [Entry.trialLive]) (by simp [Entry.trialLive]) (by simp [Entry.trialLive])).2
      h.timing
    timed := by simpa [Entry.trialLive] using h.timed
    loaded := fun hl => absurd (ht.symm.trans hl) (by nofun)
    previous := fun hp => Live.remember_previous h.previous (by simpa [Entry.trialLive] using hp)
    trips := by simpa [Entry.trialLive] using h.trips
    nonconforming := by simpa [Entry.trialLive] using h.nonconforming
    armed := fun ha => absurd (ht.symm.trans ha) (by nofun)
    onTrial := fun _ => by
      obtain ⟨r, hr, hi⟩ := h.onTrial ht
      exact ⟨r.count (e.verdict payload).ok streak, by simp [Entry.trialLive, hr], hi⟩
    results := fun r' hr' => by
      obtain ⟨r, hr, -⟩ := h.onTrial ht
      simp only [Entry.trialLive, Live.moveCondition_frame, Live.remember_frame, hr, Option.map_some, Option.some.injEq] at hr'
      exact hr' ▸ TrialResults.count_inRange (h.results r hr) _ hs }

/-- An ARMED entry made CONFORMING and FRESH is lawful, whether it stays ARMED or becomes LOADED: RESTART WARM and DISARM
(R60, R67). -/
theorem Entry.LawParts.calmed {e : Entry} (h : e.LawParts) (ha : e.state = .armed) {st : EntryState}
    (hst : st = .armed ∨ st = .loaded) :
    ({ e with
      state := st
      live := { e.live with
        condition := .conforming, recovered := false, run := 0, timing := .fresh, since := 0, miss := 0 } } : Entry).LawParts :=
  { h with
    emptyIfFree := fun hf => by rcases hst with hst | hst <;> exact absurd (hst.symm.trans hf) (by nofun)
    configInRange := fun _ => h.configInRange (by rw [ha]; nofun)
    condition := ⟨rfl, rfl⟩
    timing := rfl
    timed := Live.since_fresh rfl rfl
    loaded := fun _ => rfl
    armed := fun _ => h.armed ha
    onTrial := fun ht => by rcases hst with hst | hst <;> exact absurd (hst.symm.trans ht) (by nofun) }

theorem Entry.LawParts.disarm {e : Entry} (h : e.LawParts) (ha : e.state = .armed) : e.disarm.LawParts :=
  h.calmed ha (.inr rfl)

theorem Entry.LawParts.restartWarm {e : Entry} (h : e.LawParts) : e.restartWarm.LawParts := by
  unfold Entry.restartWarm
  split
  next ha => exact h.calmed (beq_iff_eq.1 ha) (.inl (beq_iff_eq.1 ha))
  · exact h

/-- The entry step of a clear releases an ARMED, TRIPPED, recovered entry (R134). -/
theorem Entry.LawParts.released {e : Entry} (h : e.LawParts) : e.released.LawParts := by
  unfold Entry.released
  split
  next hr =>
    have ha : e.state = .armed := by simp only [Bool.and_eq_true, beq_iff_eq] at hr; exact hr.1.1
    exact { h with
      emptyIfFree := fun hf => absurd (ha.symm.trans hf) (by nofun)
      condition := ⟨rfl, rfl⟩
      loaded := fun _ => rfl }
  · exact h

/-- The end of a trial (R63). -/
theorem Entry.LawParts.leaveTrial {e : Entry} (h : e.LawParts) (ht : e.state = .trial) (how : TrialLeave) :
    (e.leaveTrial how).LawParts :=
  have hf := h.untimed (by rw [ht]; nofun)
  { h with
    emptyIfFree := nofun
    configInRange := fun _ => h.configInRange (by rw [ht]; nofun)
    condition := ⟨rfl, rfl⟩
    timed := Live.since_fresh hf.1 hf.2.1
    loaded := fun _ => rfl
    previous := nofun
    armed := nofun
    onTrial := nofun
    results := fun r' hr' => by
      obtain ⟨r, hr, -⟩ := h.onTrial ht
      have hin := h.results r hr
      cases how <;> simp only [Entry.leaveTrial, TrialLeave.results, hr, Option.map_some, Option.some.injEq] at hr'
      case complete | incomplete => exact hr' ▸ hin
      case absent => cases hr' }

/-- A LOADED entry goes on trial (R62). -/
theorem Entry.LawParts.beginTrial {e : Entry} (h : e.LawParts) (hl : e.state = .loaded) : e.beginTrial.LawParts :=
  have hf := h.untimed (by rw [hl]; nofun)
  { h with
    emptyIfFree := nofun
    configInRange := fun _ => h.configInRange (by rw [hl]; nofun)
    condition := ⟨rfl, rfl⟩
    timed := Live.since_fresh hf.1 hf.2.1
    loaded := nofun
    previous := nofun
    armed := nofun
    onTrial := fun _ => ⟨_, rfl, rfl⟩
    results := fun r hr => by
      obtain rfl := Option.some.inj hr
      exact ⟨Nat.zero_le _, Nat.le_refl _, Nat.zero_le _⟩ }

/-- A configuration in range with the starting values, LOADED or ARMED (R57, R58). -/
theorem Entry.lawParts_starting {c : EntryConfig} (hc : c.inRange) {st : EntryState} (hst : st = .loaded ∨ st = .armed) :
    ({ state := st, config := c, live := Live.starting } : Entry).LawParts where
  emptyIfFree hf := by rcases hst with hst | hst <;> exact absurd (hst.symm.trans hf) (by nofun)
  configInRange _ := hc
  condition := ⟨rfl, rfl⟩
  timing := rfl
  timed := Live.since_fresh rfl rfl
  loaded _ := rfl
  previous := nofun
  trips := Nat.zero_le _
  nonconforming := Nat.zero_le _
  armed _ := rfl
  onTrial ht := by rcases hst with hst | hst <;> exact absurd (hst.symm.trans ht) (by nofun)
  results := nofun

/-- A configuration that passes the checks of R56 stands in the ranges. -/
theorem configOf_inRange {ops : List Byte} {k : Nat} {c : EntryConfig} (h : configOf ops k = some c) : c.inRange := by
  unfold configOf at h
  dsimp only at h
  split at h
  next kind reaction _ _ =>
    split at h
    next hl =>
      obtain rfl := Option.some.inj h
      simp only [EntryConfig.legal, EntryConfig.width, Bool.and_eq_true, decide_eq_true_eq] at hl
      obtain ⟨⟨⟨⟨⟨⟨ho, hd⟩, hd'⟩, hm⟩, hm'⟩, hslot⟩, -⟩ := hl
      exact ⟨of_decide_eq_true ho, hd, hd', hm, hm', Nat.le_of_lt_succ (BitVec.isLt _), hslot⟩
    · cases h
  · cases h

/-- A counted train end keeps the miss count and the trains since match in their ranges (R53, R95). -/
theorem Entry.LawParts.timingUpdate {e : Entry} (h : e.LawParts) : e.timingUpdate.LawParts := by
  by_cases ht : e.timed = true ∧ e.live.timing ≠ .stale
  · obtain ⟨htimed, hns⟩ := ht
    obtain ⟨ha, hp⟩ : e.state = .armed ∧ 0 < e.config.period := by simpa [Entry.timed] using htimed
    have hcfg : e.config.inRange := h.configInRange (by rw [ha]; nofun)
    have hsince : e.live.since < e.config.period := by
      have hs := h.timed
      rwa [if_neg (by simp [ha]; omega)] at hs
    have hmiss : e.live.miss < e.config.missLimit := by
      have hm := h.timing
      have h1 : 1 ≤ e.config.missLimit := hcfg.2.2.2.1
      unfold Live.timingLawful at hm
      cases hc : e.live.timing <;> simp only [hc] at hm hns
      · omega
      · exact hm.2
      · exact absurd rfl hns
    have notFree : e.state ≠ .free := by rw [ha]; nofun
    have hdue : e.periodDue = decide (e.live.since + 1 = e.config.period) := by simp [Entry.periodDue, htimed, hns]
    have counting : ¬ (e.config.period = 0 ∨ e.state ≠ .armed) := by simp [ha]; omega
    unfold Entry.timingUpdate
    split
    · exact { h with
        emptyIfFree := fun hf => absurd hf notFree
        timing := ⟨rfl, rfl⟩
        timed := by rw [if_neg counting]; exact hp }
    next hstale =>
      split
      next hdue' =>
        have hlate : e.live.miss + 1 ≠ e.config.missLimit := by simpa [Entry.staleDue, hdue'] using hstale
        exact { h with
          emptyIfFree := fun hf => absurd hf notFree
          timing := ⟨Nat.succ_pos _, by show e.live.miss + 1 < e.config.missLimit; omega⟩
          timed := by rw [if_neg counting]; exact hp }
      next hdue' =>
        have hsince' : e.live.since + 1 ≠ e.config.period := by simpa [hdue] using hdue'
        rw [if_pos (by simp [htimed, hns])]
        exact { h with
          emptyIfFree := fun hf => absurd hf notFree
          timing := by
            have hm := h.timing
            unfold Live.timingLawful at hm ⊢
            cases hc : e.live.timing <;> simp only [hc] at hm hns ⊢
            · exact hm
            · exact hm
            · exact absurd rfl hns
          timed := by rw [if_neg counting]; show e.live.since + 1 < e.config.period; omega }
  · have hno : (e.timed && e.live.timing != .stale) = false := by
      rw [Bool.eq_false_iff]
      simpa using ht
    have : e.timingUpdate = e := by simp [Entry.timingUpdate, Entry.staleDue, Entry.periodDue, hno]
    rw [this]; exact h

end Sys2Proof.Machine
end

section
/-! PROOF. The Watch Table as a whole: distinct keys and slots, the entry on trial, the running operation's bounds; and the operations of
the blocks that keep them (R58, R59, R62, R63, R67, R94, R134, R169 to R178). -/

namespace Sys2Proof.Machine

/-! ### The parts of the table's law -/

/-- The entry is ARMED or in TRIAL (R54). -/
def Entry.works (e : Entry) : Prop := e.state = .armed ∨ e.state = .trial

/-- The entry is ARMED with reaction SUBSTITUTE (R58). -/
def Entry.fills (e : Entry) : Prop := e.state = .armed ∧ e.config.reaction = .substitute

/-- Two entries that may not stand in one table: working entries of one key, or ARMED SUBSTITUTE entries of one slot (R58, R59). -/
def Entry.clashes (a b : Entry) : Prop :=
  (a.works ∧ b.works ∧ a.config.source = b.config.source ∧ a.config.channel = b.config.channel) ∨
    (a.fills ∧ b.fills ∧ a.config.slot = b.config.slot)

theorem Entry.clashes.symm {a b : Entry} (h : a.clashes b) : b.clashes a :=
  h.imp (fun ⟨ha, hb, hs, hc⟩ => ⟨hb, ha, hs.symm, hc.symm⟩) (fun ⟨ha, hb, hs⟩ => ⟨hb, ha, hs.symm⟩)

/-- Only working entries clash. -/
theorem Entry.clashes.works {a b : Entry} (h : a.clashes b) : a.works := h.elim (·.1) (fun h => .inl h.1.1)

/-- Clashing looks at state and configuration only. -/
theorem Entry.clashes_congr {a a' b b' : Entry} (ha : a'.state = a.state) (hca : a'.config = a.config)
    (hb : b'.state = b.state) (hcb : b'.config = b.config) : a'.clashes b' ↔ a.clashes b := by
  unfold Entry.clashes Entry.works Entry.fills
  rw [ha, hca, hb, hcb]

/-- No two entries of the table clash. -/
def State.noClash (s : State) : Prop := ∀ i j, i ≠ j → ¬ (s.entry i).clashes (s.entry j)

/-- The entry of the running trial (R169). -/
def OperationSlot.trialEntry : OperationSlot → Option Nat
  | .trial t => some t.entry
  | _ => none

/-- The running operation has not reached its end, and no abort waits on an idle slot (R172 to R179). -/
def OperationUnit.inBounds (o : OperationUnit) : Prop :=
  match o.slot with
  | .idle => o.pendingAbort = .none
  | .capture c =>
    c.wanted ≤ 32 ∧ c.matched < c.wanted ∧ c.stored + c.lost = c.matched ∧ c.limit ≤ 255 ∧ c.without < c.limit
  | .trial t => t.limit ≤ 255 ∧ t.counted < t.limit

/-- The law of the table but for the running operation's own counts, which stand at their limit for a moment as the operation ends. -/
structure State.EntriesLawful (s : State) : Prop where
  length : s.table.entries.length = 64
  lawful : ∀ i, (s.entry i).LawParts
  noClash : s.noClash
  onTrial : ∀ i, (s.entry i).state = .trial ↔ s.op.slot.trialEntry = some i
  streak : s.trialStreak ≤ 255

theorem OperationSlot.trialEntry_of_isIdle {o : OperationSlot} (h : o.isIdle = true) : o.trialEntry = none := by
  cases o with
  | idle => rfl
  | capture c => cases h
  | trial t => cases h

theorem OperationSlot.isIdle_iff {o : OperationSlot} : o.isIdle = true ↔ o = .idle := by
  cases o <;> simp [OperationSlot.isIdle]

theorem OperationSlot.trialEntry_eq_some {o : OperationSlot} {i : Nat} :
    o.trialEntry = some i ↔ ∃ t, o = .trial t ∧ t.entry = i := by
  cases o <;> simp [OperationSlot.trialEntry]

theorem State.noClash_iff (s : State) :
    s.noClash ↔
      (∀ i j, i ≠ j → (s.entry i).works → (s.entry j).works →
        ¬ ((s.entry i).config.source = (s.entry j).config.source ∧ (s.entry i).config.channel = (s.entry j).config.channel)) ∧
      (∀ i j, i ≠ j → (s.entry i).fills → (s.entry j).fills → (s.entry i).config.slot ≠ (s.entry j).config.slot) :=
  ⟨fun h => ⟨fun i j hij hi hj hk => h i j hij (.inl ⟨hi, hj, hk.1, hk.2⟩),
      fun i j hij hi hj hs => h i j hij (.inr ⟨hi, hj, hs⟩)⟩,
    fun ⟨hk, hs⟩ i j hij hc => hc.elim (fun ⟨hi, hj, h1, h2⟩ => hk i j hij hi hj ⟨h1, h2⟩)
      (fun ⟨hi, hj, h⟩ => hs i j hij hi hj h)⟩

theorem State.tableLawful_iff (s : State) : s.tableLawful ↔ s.EntriesLawful ∧ s.op.inBounds := by
  constructor
  · rintro ⟨hlen, hlaw, hkeys, hslots, htrial, hstreak, hop⟩
    exact ⟨⟨hlen, fun i => (Entry.lawful_iff _).1 (hlaw i), (s.noClash_iff).2 ⟨hkeys, hslots⟩,
      fun i => (htrial i).trans OperationSlot.trialEntry_eq_some.symm, hstreak⟩, hop⟩
  · rintro ⟨⟨hlen, hlaw, hclash, htrial, hstreak⟩, hop⟩
    obtain ⟨hkeys, hslots⟩ := (s.noClash_iff).1 hclash
    exact ⟨hlen, fun i => (Entry.lawful_iff _).2 (hlaw i), hkeys, hslots,
      fun i => (htrial i).trans OperationSlot.trialEntry_eq_some, hstreak, hop⟩

/-! ### Reading entries after a change -/

/-- An entry after an update is the updated one, or as before. -/
theorem State.entry_updateEntry_cases (s : State) (i j : Nat) (f : Entry → Entry) :
    (j = i ∧ i < s.table.entries.length ∧ (s.updateEntry i f).entry j = f (s.entry j)) ∨
      (s.updateEntry i f).entry j = s.entry j := by
  by_cases hj : j = i
  · subst hj
    by_cases hlt : j < s.table.entries.length
    · exact .inl ⟨rfl, hlt, s.entry_updateEntry j f hlt⟩
    · have hb : (s.updateEntry j f).entry j = Entry.empty := State.entry_beyond (by simpa [State.updateEntry] using hlt)
      exact .inr (hb.trans (State.entry_beyond (by simpa using hlt)).symm)
  · exact .inr (s.entry_updateEntry_ne f hj)

/-- An entry of a table mapped by a function that keeps the empty entry. -/
theorem State.entry_of_map {s t : State} {f : Entry → Entry} (ht : t.table.entries = s.table.entries.map f)
    (hf : f Entry.empty = Entry.empty) (i : Nat) : t.entry i = f (s.entry i) := by
  unfold State.entry
  rw [ht, List.getD_eq_getElem?_getD, List.getD_eq_getElem?_getD, List.getElem?_map]
  cases s.table.entries[i]? with
  | none => exact hf.symm
  | some e => rfl

/-- Equal tables hold equal entries. -/
theorem State.entry_congr {s t : State} (h : t.table.entries = s.table.entries) (i : Nat) : t.entry i = s.entry i := by
  unfold State.entry; rw [h]

/-! ### What keeps the law -/

/-- The law looks at the entries, the trial streak and the entry on trial. -/
theorem State.EntriesLawful.frame {s t : State} (h : s.EntriesLawful) (hk : t.trialStreak ≤ 255)
    (ho : t.op.slot.trialEntry = s.op.slot.trialEntry) (he : t.table.entries = s.table.entries) :
    t.EntriesLawful where
  length := he ▸ h.length
  lawful i := State.entry_congr he i ▸ h.lawful i
  noClash i j := by rw [State.entry_congr he i, State.entry_congr he j]; exact h.noClash i j
  onTrial i := by rw [State.entry_congr he i, ho]; exact h.onTrial i
  streak := hk

/-- The law of the table looks at the entries, the operation slot with its pending abort, and the trial streak. -/
theorem State.tableLawful.frame {s t : State} (h : s.tableLawful)
    (hsame : t.table.entries = s.table.entries ∧ t.op.slot = s.op.slot ∧ t.op.pendingAbort = s.op.pendingAbort ∧
      t.trialStreak = s.trialStreak) : t.tableLawful := by
  obtain ⟨he, ho, ha, hk⟩ := hsame
  rw [State.tableLawful_iff] at h ⊢
  refine ⟨h.1.frame (hk ▸ h.1.streak) (by rw [ho]) he, ?_⟩
  have hb := h.2
  unfold OperationUnit.inBounds at hb ⊢
  rwa [ho, ha]

/-- A change of live fields alone keeps the law, if each entry stays lawful by itself. -/
theorem State.EntriesLawful.of_live {s t : State} (h : s.EntriesLawful)
    (hlen : t.table.entries.length = s.table.entries.length)
    (he : ∀ i, (t.entry i).LawParts ∧ (t.entry i).state = (s.entry i).state ∧ (t.entry i).config = (s.entry i).config)
    (ho : t.op.slot = s.op.slot) (hk : t.trialStreak ≤ 255) : t.EntriesLawful where
  length := hlen.trans h.length
  lawful i := (he i).1
  noClash i j hij hc :=
    h.noClash i j hij ((Entry.clashes_congr (he i).2.1 (he i).2.2 (he j).2.1 (he j).2.2).1 hc)
  onTrial i := by rw [(he i).2.1, ho]; exact h.onTrial i
  streak := hk

/-- The same for one entry. -/
theorem State.EntriesLawful.updateLive {s : State} (h : s.EntriesLawful) (i : Nat) (f : Entry → Entry)
    (hlaw : i < s.table.entries.length → (f (s.entry i)).LawParts)
    (hst : (f (s.entry i)).state = (s.entry i).state) (hcfg : (f (s.entry i)).config = (s.entry i).config) :
    (s.updateEntry i f).EntriesLawful :=
  h.of_live (by simp [State.updateEntry]) (fun j => by
    rcases s.entry_updateEntry_cases i j f with ⟨rfl, hlt, he⟩ | he <;> rw [he]
    · exact ⟨hlaw hlt, hst, hcfg⟩
    · exact ⟨h.lawful j, rfl, rfl⟩) (by simp) h.streak

/-- An entry may change its state, if the new one is lawful, clashes with no other, and is in TRIAL exactly if the operation
that then runs is its trial. -/
theorem State.EntriesLawful.replace {s t : State} (h : s.EntriesLawful) {i : Nat} {f : Entry → Entry}
    (hi : i < s.table.entries.length) (he : t.table.entries = s.table.entries.modify i f) (hlaw : (f (s.entry i)).LawParts)
    (hclash : ∀ j, j ≠ i → ¬ (f (s.entry i)).clashes (s.entry j))
    (htrial : (f (s.entry i)).state = .trial ↔ t.op.slot.trialEntry = some i)
    (hothers : ∀ j, j ≠ i → ((s.entry j).state = .trial ↔ t.op.slot.trialEntry = some j))
    (hk : t.trialStreak ≤ 255) : t.EntriesLawful := by
  have hat : t.entry i = f (s.entry i) := (State.entry_congr (t := t) (s := s.updateEntry i f) he i).trans
    (s.entry_updateEntry i f hi)
  have hne : ∀ j, j ≠ i → t.entry j = s.entry j := fun j hj =>
    (State.entry_congr (t := t) (s := s.updateEntry i f) he j).trans (s.entry_updateEntry_ne f hj)
  refine ⟨by rw [he, List.length_modify, h.length], fun j => ?_, fun j k hjk => ?_, fun j => ?_, hk⟩
  · by_cases hj : j = i
    · subst hj; rw [hat]; exact hlaw
    · rw [hne j hj]; exact h.lawful j
  · by_cases hj : j = i
    · subst hj
      rw [hat, hne k (Ne.symm hjk)]; exact hclash k (Ne.symm hjk)
    · by_cases hk : k = i
      · subst hk
        rw [hat, hne j hj]; exact fun hc => hclash j hj hc.symm
      · rw [hne j hj, hne k hk]; exact h.noClash j k hjk
  · by_cases hj : j = i
    · subst hj; rw [hat]; exact htrial
    · rw [hne j hj]; exact hothers j hj

/-- An entry that is not on trial may leave or stay out of work, as DISARM, FREE and LOAD ENTRY make it do (R57, R60, R61). -/
theorem State.EntriesLawful.rest {s : State} (h : s.EntriesLawful) (i : Nat) (f : Entry → Entry)
    (hlaw : (f (s.entry i)).LawParts) (hold : (s.entry i).state ≠ .trial)
    (hrest : (f (s.entry i)).state = .free ∨ (f (s.entry i)).state = .loaded) : (s.updateEntry i f).EntriesLawful := by
  have notWorking : ¬ (f (s.entry i)).works := by rcases hrest with hr | hr <;> simp [Entry.works, hr]
  have notTrial : (f (s.entry i)).state ≠ .trial := fun ht => notWorking (.inr ht)
  by_cases hi : i < s.table.entries.length
  · refine h.replace hi rfl hlaw (fun j _ hc => notWorking hc.works) ?_ (fun j _ => h.onTrial j) h.streak
    exact iff_of_false notTrial ((h.onTrial i).not.1 hold)
  · refine h.frame h.streak rfl ?_
    exact List.modify_eq_self (by simpa using hi)

/-- An index beyond the table names no entry of a state but FREE. -/
theorem State.lt_of_state {s : State} {i : Nat} (h : (s.entry i).state ≠ .free) : i < s.table.entries.length := by
  by_contra hge
  rw [State.entry_beyond (by simpa using hge)] at h
  exact h rfl

/-! ### The end of an operation (R63, R171) -/

theorem State.EntriesLawful.closeOperation {s : State} (h : s.EntriesLawful) (c : EndCause) (how : TrialLeave) :
    (s.closeOperation c how).EntriesLawful := by
  unfold State.closeOperation
  split
  · exact h
  next c hc => exact h.frame h.streak (by rw [hc]; rfl) rfl
  next t ht =>
    have hrun : s.op.slot.trialEntry = some t.entry := by rw [ht]; rfl
    have hst : (s.entry t.entry).state = .trial := (h.onTrial _).2 hrun
    refine h.replace (i := t.entry) (State.lt_of_state (by rw [hst]; nofun)) rfl ((h.lawful _).leaveTrial hst how) ?_
      (iff_of_false nofun nofun) ?_ (Nat.zero_le _)
    · exact fun j _ hc => hc.works.elim nofun nofun
    · refine fun j hj => iff_of_false (fun hjt => hj ?_) nofun
      exact Option.some.inj (((h.onTrial j).1 hjt).symm.trans hrun)

/-- An operation's end, whatever its counts had come to, leaves the table lawful. -/
theorem State.EntriesLawful.closeOperation_tableLawful {s : State} (h : s.EntriesLawful)
    (ha : s.op.slot = .idle → s.op.pendingAbort = .none) (c : EndCause) (how : TrialLeave) :
    (s.closeOperation c how).tableLawful := by
  refine (State.tableLawful_iff _).2 ⟨h.closeOperation c how, ?_⟩
  unfold State.closeOperation OperationUnit.inBounds
  cases hs : s.op.slot with
  | idle => simp only [hs]; exact ha hs
  | capture c => rfl
  | trial t => rfl

theorem State.EntriesLawful.endOperation_tableLawful {s : State} (h : s.EntriesLawful) (hs : s.op.slot ≠ .idle)
    (c : EndCause) (how : TrialLeave) : (s.endOperation c how).tableLawful := by
  rw [State.endOperation, if_neg (OperationSlot.isIdle_iff.not.2 hs)]
  exact (h.closeOperation_tableLawful (fun h0 => absurd h0 hs) c how).frame (by simp)

/-- With no operation no abort waits (R179). -/
theorem State.tableLawful.idle {s : State} (h : s.tableLawful) (hs : s.op.slot = .idle) : s.op.pendingAbort = .none := by
  have hb := ((State.tableLawful_iff s).1 h).2
  rwa [OperationUnit.inBounds, hs] at hb

theorem State.tableLawful.entries {s : State} (h : s.tableLawful) : s.EntriesLawful := ((State.tableLawful_iff s).1 h).1

/-- A table's law goes on while the operation is kept. -/
theorem State.EntriesLawful.tableLawful {s t : State} (ht : t.EntriesLawful) (h : s.tableLawful) (ho : t.op = s.op) :
    t.tableLawful :=
  (State.tableLawful_iff t).2 ⟨ht, ho ▸ ((State.tableLawful_iff s).1 h).2⟩

theorem State.tableLawful.closeOperation {s : State} (h : s.tableLawful) (c : EndCause) (how : TrialLeave) :
    (s.closeOperation c how).tableLawful :=
  h.entries.closeOperation_tableLawful h.idle c how

theorem State.tableLawful.abortOperation {s : State} (h : s.tableLawful) : s.abortOperation.tableLawful := by
  unfold State.abortOperation State.endOperation
  split
  · exact h
  · exact (h.closeOperation .aborted .incomplete).frame (by simp)

theorem State.tableLawful.abortQuietly {s : State} (h : s.tableLawful) : s.abortQuietly.tableLawful := by
  unfold State.abortQuietly
  exact (h.closeOperation .aborted .incomplete).frame (by simp)

theorem State.tableLawful.tripAbort {s : State} (h : s.tableLawful) : s.tripAbort.tableLawful := by
  unfold State.tripAbort
  split
  · exact h.abortOperation
  · exact h

theorem State.tableLawful.trainAbort {s : State} (h : s.tableLawful) : s.trainAbort.tableLawful := by
  unfold State.trainAbort
  split
  · exact h.abortOperation
  · exact h

/-- A pending abort is stored while an operation runs only (R179). -/
theorem State.tableLawful.storeAbort {s : State} (h : s.tableLawful) (p : PendingAbort) : (s.storeAbort p).tableLawful := by
  unfold State.storeAbort
  split
  · exact h
  next hs =>
    refine (State.tableLawful_iff _).2 ⟨h.entries.frame h.entries.streak rfl rfl, ?_⟩
    have hb := ((State.tableLawful_iff s).1 h).2
    unfold OperationUnit.inBounds at hb ⊢
    cases hc : s.op.slot <;> simp only [hc] at hb hs ⊢
    case idle => exact absurd rfl hs
    case capture | trial => exact hb

/-! ### The counts of a running operation (R173 to R178) -/

/-- A running capture's counts move within their bounds, or the capture ends. -/
theorem State.tableLawful.moveCapture {s t : State} (h : s.tableLawful) {c c' : CaptureFields} (hs : s.op.slot = .capture c)
    (ht : t.op.slot = .capture c') (he : t.table.entries = s.table.entries) (hk : t.trialStreak = s.trialStreak)
    (hb : c'.wanted ≤ 32 ∧ c'.matched < c'.wanted ∧ c'.stored + c'.lost = c'.matched ∧ c'.limit ≤ 255 ∧
      c'.without < c'.limit) : t.tableLawful :=
  (State.tableLawful_iff t).2
    ⟨h.entries.frame (hk ▸ h.entries.streak) (by rw [hs, ht]; rfl) he, by
      rw [OperationUnit.inBounds, ht]; exact hb⟩

/-- What a match leaves in the slot (R174, steps 1 to 4): the counts of a capture that has lost fewer than 255. -/
theorem OperationUnit.countMatch_slot {c : CaptureFields} (hl : c.lost < 255) (d : DataRecord) (train : Byte) (o : OperationUnit) :
    ∃ c', (o.countMatch c d train).slot = .capture c' ∧ c'.wanted = c.wanted ∧ c'.limit = c.limit ∧
      c'.matched = c.matched + 1 ∧ c'.without = 0 ∧ c'.stored + c'.lost = c.stored + c.lost + 1 := by
  unfold OperationUnit.countMatch
  dsimp only
  split
  · exact ⟨_, rfl, rfl, rfl, rfl, rfl, by dsimp only; omega⟩
  · exact ⟨_, rfl, rfl, rfl, rfl, rfl, by simp only [saturate, hl, if_true]; omega⟩

theorem State.tableLawful.captureRecord {s : State} (h : s.tableLawful) (d : DataRecord) :
    (s.captureRecord d).tableLawful := by
  unfold State.captureRecord
  split
  next c hc =>
    split
    · have hb := ((State.tableLawful_iff s).1 h).2
      rw [OperationUnit.inBounds, hc] at hb
      obtain ⟨hw, hm, hsum, hlim, hwo⟩ := hb
      obtain ⟨c', hc', hw', hlim', hm', hwo', hsum'⟩ :=
        OperationUnit.countMatch_slot (c := c) (by omega) d s.framer.sequence s.op
      dsimp only
      split
      · have hlaw : State.EntriesLawful { s with op := s.op.countMatch c d s.framer.sequence } :=
          h.entries.frame h.entries.streak (by rw [hc, hc']; rfl) rfl
        exact hlaw.endOperation_tableLawful (by rw [hc']; nofun) _ _
      · exact h.moveCapture hc hc' rfl rfl (by omega)
    · exact h
  · exact h

theorem State.tableLawful.captureTrainEnd {s : State} (h : s.tableLawful) : s.captureTrainEnd.tableLawful := by
  unfold State.captureTrainEnd
  split
  next c hc =>
    have hb := ((State.tableLawful_iff s).1 h).2
    rw [OperationUnit.inBounds, hc] at hb
    obtain ⟨hw, hm, hsum, hlim, hwo⟩ := hb
    dsimp only
    split
    · have hlaw : State.EntriesLawful { s with op := { s.op with slot := .capture { c with without := c.without + 1 } } } :=
        h.entries.frame h.entries.streak (by rw [hc]; rfl) rfl
      exact hlaw.endOperation_tableLawful nofun _ _
    next hne => exact h.moveCapture hc rfl rfl rfl ⟨hw, hm, hsum, hlim, by show c.without + 1 < c.limit; omega⟩
  · exact h

theorem State.tableLawful.trialTrainEnd {s : State} (h : s.tableLawful) : s.trialTrainEnd.tableLawful := by
  unfold State.trialTrainEnd
  split
  next t ht =>
    have hb := ((State.tableLawful_iff s).1 h).2
    rw [OperationUnit.inBounds, ht] at hb
    have hlaw : State.EntriesLawful { s with op := { s.op with slot := .trial { t with counted := t.counted + 1 } } } :=
      h.entries.frame h.entries.streak (by rw [ht]; rfl) rfl
    dsimp only
    split
    · exact hlaw.endOperation_tableLawful nofun _ _
    next hne => exact (State.tableLawful_iff _).2 ⟨hlaw, hb.1, by show t.counted + 1 < t.limit; omega⟩
  · exact h

/-! ### The timing update, the clear and the restarts -/

theorem Entry.timingUpdate_role (e : Entry) : e.timingUpdate.state = e.state ∧ e.timingUpdate.config = e.config := by
  unfold Entry.timingUpdate
  repeat' split
  all_goals exact ⟨rfl, rfl⟩

theorem Entry.released_role (e : Entry) : e.released.state = e.state ∧ e.released.config = e.config := by
  unfold Entry.released
  split <;> exact ⟨rfl, rfl⟩

theorem Entry.restartWarm_role (e : Entry) : e.restartWarm.state = e.state ∧ e.restartWarm.config = e.config := by
  unfold Entry.restartWarm
  split <;> exact ⟨rfl, rfl⟩

theorem State.tableLawful.timeEntry {s : State} (h : s.tableLawful) (i : Nat) : (s.timeEntry i).tableLawful := by
  have hu : (s.updateEntry i Entry.timingUpdate).tableLawful :=
    (h.entries.updateLive i _ (fun _ => (h.entries.lawful i).timingUpdate) (Entry.timingUpdate_role _).1
      (Entry.timingUpdate_role _).2).tableLawful h (by simp)
  unfold State.timeEntry
  dsimp only
  split
  · exact hu.frame (by simp)
  · exact hu

theorem State.tableLawful.timeEntriesFrom {s : State} (h : s.tableLawful) (n i : Nat) :
    (s.timeEntriesFrom n i).tableLawful := by
  induction n generalizing i s with
  | zero => exact h
  | succ n ih => exact ih (h.timeEntry i) (i + 1)

theorem State.tableLawful.timingUpdate {s : State} (h : s.tableLawful) : s.timingUpdate.tableLawful :=
  h.timeEntriesFrom Config.entries 0

/-- A change of every entry's live fields. -/
theorem State.tableLawful.mapLive {s t : State} (h : s.tableLawful) {f : Entry → Entry}
    (he : t.table.entries = s.table.entries.map f) (hf : f Entry.empty = Entry.empty)
    (hlaw : ∀ e : Entry, e.LawParts → (f e).LawParts) (hrole : ∀ e : Entry, (f e).state = e.state ∧ (f e).config = e.config)
    (ho : t.op = s.op) (hk : t.trialStreak = s.trialStreak) : t.tableLawful := by
  refine (h.entries.of_live (by rw [he, List.length_map]) (fun i => ?_) (by rw [ho]) (hk ▸ h.entries.streak)).tableLawful h ho
  rw [State.entry_of_map he hf]
  exact ⟨hlaw _ (h.entries.lawful i), hrole _⟩

theorem State.tableLawful.clearEntries {s : State} (h : s.tableLawful) (scope : ClearScope) :
    (s.clearEntries scope).tableLawful := by
  unfold State.clearEntries
  split
  · exact h
  next i =>
    exact (h.entries.updateLive i _ (fun _ => (h.entries.lawful i).released) (Entry.released_role _).1
      (Entry.released_role _).2).tableLawful h (by simp)
  · exact h.mapLive rfl rfl (fun _ he => he.released) Entry.released_role rfl rfl

theorem State.tableLawful.clear {s : State} (h : s.tableLawful) (mask : PerFactor Bool) (scope : ClearScope) :
    (s.clear mask scope).tableLawful := by
  unfold State.clear
  exact (h.clearEntries scope).frame (by simp)

theorem State.tableLawful.restartWarm {s : State} (h : s.tableLawful) : s.restartWarm.tableLawful := by
  have hc : ((s.closeOperation .aborted .absent).endIsolation).tableLawful := (h.closeOperation .aborted .absent).frame (by simp)
  have hm : State.tableLawful { (s.closeOperation .aborted .absent).endIsolation with
      table := { (s.closeOperation .aborted .absent).endIsolation.table with
        entries := (s.closeOperation .aborted .absent).endIsolation.table.entries.map Entry.restartWarm } } :=
    hc.mapLive rfl rfl (fun _ he => he.restartWarm) Entry.restartWarm_role rfl rfl
  unfold State.restartWarm
  exact hm.frame (by simp)

/-- The empty table with no operation running and no abort waiting is lawful (R68, R184). -/
theorem State.tableLawful_of_empty {s : State} (ht : s.table.entries = WatchTable.empty.entries) (hs : s.op.slot = .idle)
    (ha : s.op.pendingAbort = .none) (hk : s.trialStreak ≤ 255) : s.tableLawful := by
  have hempty : ∀ i, s.entry i = Entry.empty := fun i => by
    unfold State.entry
    rw [ht, List.getD_eq_getElem?_getD, WatchTable.empty, List.getElem?_replicate]
    split <;> rfl
  refine (State.tableLawful_iff s).2 ⟨⟨by rw [ht]; rfl, fun i => ?_, fun i j _ hc => ?_, fun i => ?_, hk⟩, ?_⟩
  · rw [hempty]; exact Entry.empty_lawParts
  · rw [hempty] at hc; exact hc.works.elim nofun nofun
  · rw [hempty, hs]; exact iff_of_false nofun nofun
  · rw [OperationUnit.inBounds, hs]; exact ha

theorem State.tableLawful.restartTable {s : State} (h : s.tableLawful) : s.restartTable.tableLawful := by
  have hc : (s.closeOperation .aborted .absent).tableLawful := h.closeOperation .aborted .absent
  have hidle : (s.closeOperation .aborted .absent).op.slot = .idle := by rw [State.closeOperation_eq]
  exact State.tableLawful_of_empty (by simp [State.restartTable]) (by simpa [State.restartTable] using hidle)
    (by simpa [State.restartTable] using hc.idle hidle) (by simpa [State.restartTable] using hc.entries.streak)

end Sys2Proof.Machine
end

section
/-! PROOF. Every step keeps the table lawful (R53): the judgement, the requests, the Framer's arrivals and the commands, each by the
operations it is made of. -/

namespace Sys2Proof.Machine

/-! ### The judgement of a data record (R70 to R89) -/

/-- The lookup finds a working entry (R70). -/
theorem State.lookup_works {s : State} {source channel : Byte} {i : Nat} (h : s.lookup source channel = some i) :
    (s.entry i).works := by
  obtain ⟨hlt, hp, -⟩ := List.findIdx?_eq_some_iff_getElem.1 h
  have he : s.entry i = s.table.entries[i] := by
    rw [State.entry, List.getD_eq_getElem?_getD, List.getElem?_eq_getElem hlt]; rfl
  rw [← he, Bool.and_eq_true, Entry.working, Bool.or_eq_true, beq_iff_eq, beq_iff_eq] at hp
  exact hp.1

/-- The trip actions touch the table by an abort only (R82, R180). -/
theorem State.tableLawful.tripActions {s : State} (h : s.tableLawful) (i : Nat) (r : Reaction) (v : Option Word) :
    (s.tripActions i r v).tableLawful := by
  unfold State.tripActions
  exact State.tableLawful.tripAbort (h.frame (by simp))

theorem State.tableLawful.judgeArmed {s : State} (h : s.tableLawful) {i : Nat} (ha : (s.entry i).state = .armed)
    (d : DataRecord) : (s.judgeArmed i d).tableLawful := by
  have hu : (s.updateEntry i fun x => { x with live := (s.entry i).judgedLive d.payload }).tableLawful :=
    (h.entries.updateLive i _ (fun _ => (h.entries.lawful i).judged ha d.payload) rfl rfl).tableLawful h (by simp)
  unfold State.judgeArmed
  dsimp only
  split
  · exact hu.tripActions _ _ _
  split
  · exact hu.frame (by simp)
  split
  · exact hu.frame (by simp)
  · exact hu

theorem nextStreak_le {streak : Nat} (h : streak ≤ 255) (ok : Bool) : nextStreak ok streak ≤ 255 := by
  unfold nextStreak
  split
  · exact Nat.zero_le _
  · exact saturate_le h

theorem State.tableLawful.judgeTrial {s : State} (h : s.tableLawful) {i : Nat} (ht : (s.entry i).state = .trial)
    (d : DataRecord) : (s.judgeTrial i d).tableLawful := by
  have hk := nextStreak_le h.entries.streak ((s.entry i).verdict d.payload).ok
  have hu := h.entries.updateLive i (fun x => { x with live := (s.entry i).trialLive _ d.payload })
    (fun _ => (h.entries.lawful i).judgedOnTrial ht hk d.payload) rfl rfl
  exact State.EntriesLawful.tableLawful (hu.frame hk rfl rfl) h (by simp)

theorem State.tableLawful.judge {s : State} (h : s.tableLawful) (d : DataRecord) : (s.judge d).tableLawful := by
  unfold State.judge
  split
  · exact h
  next i hi =>
    split
    next ht => exact h.judgeTrial (beq_iff_eq.1 ht) d
    next ht => exact h.judgeArmed ((State.lookup_works hi).resolve_right (by simpa using ht)) d

theorem State.tableLawful.completeData {s : State} (h : s.tableLawful) (d : DataRecord) : (s.completeData d).tableLawful := by
  unfold State.completeData
  dsimp only
  split
  · split
    · exact h.captureRecord d
    · exact ((h.captureRecord d).judge d).frame (by simp)
  · exact h

/-! ### The requests (08, 09) -/

/-- A request that names an entry leaves what its effect on the entry leaves; with no entry named, the part as it was. -/
theorem withEntry_state {P : State → Prop} {ops : List Byte} {s : State} {f : Nat → Response} (hs : P s)
    (hf : ∀ i, P (f i).state) : P (withEntry ops s f).state := by
  unfold withEntry
  split
  · exact hs
  · exact hf _

theorem State.tableLawful.reqClearAlerts {s : State} (h : s.tableLawful) (ops : List Byte) :
    (reqClearAlerts ops s).state.tableLawful := by
  unfold Machine.reqClearAlerts
  dsimp only
  split
  · exact h.clear _ _
  · split
    · exact h
    · exact h.clear _ _
  · exact h.clear _ _
  · exact h

theorem State.tableLawful.reqLoadEntry {s : State} (h : s.tableLawful) (ops : List Byte) :
    (reqLoadEntry ops s).state.tableLawful := by
  refine withEntry_state (P := State.tableLawful) h fun i => ?_
  dsimp only
  split
  · exact h
  next hw =>
    split
    · exact h
    next c hc =>
      refine (h.entries.rest i _ (Entry.lawParts_starting (configOf_inRange hc) (.inl rfl)) ?_ (.inr rfl)).tableLawful h (by simp)
      exact fun ht => hw (by simp [Entry.working, ht])

/-- The check that no other entry stands in the way holds of every other entry in use. -/
theorem State.not_of_otherEntry {s : State} {i j : Nat} {p : Entry → Bool} (h : s.otherEntry i p = false) (hj : j ≠ i)
    (hu : (s.entry j).state ≠ .free) : ¬ p (s.entry j) = true := by
  intro hp
  refine Bool.eq_false_iff.1 h (List.any_eq_true.2 ⟨_, State.entry_mem hu, ?_⟩)
  simp [hj, hp]

/-- The two checks of R58 say that the entry, armed, clashes with no other. -/
theorem State.arm_noClash {s : State} {i : Nat} (hk : s.keyTaken i = false) (hs : s.slotTaken i = false) {j : Nat}
    (hj : j ≠ i) : ¬ (s.entry i).arm.clashes (s.entry j) := by
  rintro (⟨-, hw, hsource, hchannel⟩ | ⟨hf, ⟨hja, hjr⟩, hslot⟩)
  · have hu : (s.entry j).state ≠ .free := by rcases hw with hw | hw <;> rw [hw] <;> nofun
    refine State.not_of_otherEntry hk hj hu ?_
    have hw' : (s.entry j).working = true := by rcases hw with hw | hw <;> simp [Entry.working, hw]
    simp only [Entry.arm] at hsource hchannel
    simp [hw', Entry.hasKey, hsource, hchannel]
  · have hr : (s.entry i).config.reaction = .substitute := hf.2
    rw [State.slotTaken, hr, beq_self_eq_true, Bool.true_and] at hs
    refine State.not_of_otherEntry hs hj (by rw [hja]; nofun) ?_
    simp only [Entry.arm] at hslot
    simp [Entry.fillsSlot, hja, hjr, hslot]

theorem State.tableLawful.reqArm {s : State} (h : s.tableLawful) (ops : List Byte) : (reqArm ops s).state.tableLawful := by
  refine withEntry_state (P := State.tableLawful) h fun i => ?_
  split
  · exact h
  · exact h
  · exact h
  next hl =>
    split
    · exact h
    next hk =>
      split
      · exact h
      next hs =>
        have hin := (h.entries.lawful i).configInRange (by rw [hl]; nofun)
        have hidle : s.op.slot.trialEntry ≠ some i := (h.entries.onTrial i).not.1 (by rw [hl]; nofun)
        refine State.EntriesLawful.tableLawful ?_ h rfl
        exact h.entries.replace (State.lt_of_state (by rw [hl]; nofun)) rfl (Entry.lawParts_starting hin (.inr rfl))
          (fun j hj => State.arm_noClash (by simpa using hk) (by simpa using hs) hj) (iff_of_false nofun hidle)
          (fun j _ => h.entries.onTrial j) h.entries.streak

theorem State.tableLawful.reqDisarm {s : State} (h : s.tableLawful) (ops : List Byte) :
    (reqDisarm ops s).state.tableLawful := by
  refine withEntry_state (P := State.tableLawful) h fun i => ?_
  split
  · exact h
  · exact h
  · exact h
  next ha =>
    exact (h.entries.rest i _ ((h.entries.lawful i).disarm ha) (by rw [ha]; nofun) (.inr rfl)).tableLawful h (by simp)

theorem State.tableLawful.reqFree {s : State} (h : s.tableLawful) (ops : List Byte) : (reqFree ops s).state.tableLawful := by
  refine withEntry_state (P := State.tableLawful) h fun i => ?_
  split
  · exact h
  next hl => exact (h.entries.rest i _ Entry.empty_lawParts (by rw [hl]; nofun) (.inl rfl)).tableLawful h (by simp)
  · exact h
  · exact h

theorem State.tableLawful.reqRestart {s : State} (h : s.tableLawful) (ops : List Byte) :
    (reqRestart ops s).state.tableLawful := by
  unfold Machine.reqRestart
  dsimp only
  split
  · exact h.restartWarm
  · exact h.restartTable
  · exact h

theorem State.tableLawful.reqStartCapture {s : State} (h : s.tableLawful) (ops : List Byte) :
    (reqStartCapture ops s).state.tableLawful := by
  unfold Machine.reqStartCapture
  dsimp only
  split
  · exact h
  next hidle =>
    split
    · exact h
    next hbad =>
      split
      · exact h
      · have hslot := OperationSlot.trialEntry_of_isIdle (o := s.op.slot) (by simpa using hidle)
        have hlim : (captureOf ops).limit < 256 := BitVec.isLt _
        refine (State.tableLawful_iff _).2 ⟨h.entries.frame h.entries.streak hslot.symm rfl, ?_⟩
        refine ⟨by omega, ?_, rfl, by omega, ?_⟩
        · show 0 < (captureOf ops).wanted; omega
        · show 0 < (captureOf ops).limit; omega

/-- An entry that goes on trial clashes with no other, if no ARMED entry holds its key and no trial runs (R177). -/
theorem State.beginTrial_noClash {s : State} {i : Nat} (hk : s.keyArmed i = false) {j : Nat}
    (hj : (s.entry j).state ≠ .trial) : ¬ (s.entry i).beginTrial.clashes (s.entry j) := by
  rintro (⟨-, hw, hsource, hchannel⟩ | ⟨hf, -⟩)
  · have ha : (s.entry j).state = .armed := hw.resolve_right hj
    refine Bool.eq_false_iff.1 hk (List.any_eq_true.2 ⟨s.entry j, ?_, ?_⟩)
    · exact (s.entry_eq j).resolve_right fun he => by rw [he] at ha; cases ha
    · simp only [Entry.beginTrial] at hsource hchannel
      simp [ha, Entry.hasKey, hsource, hchannel]
  · exact absurd hf.1 nofun

theorem State.tableLawful.reqStartTrial {s : State} (h : s.tableLawful) (ops : List Byte) :
    (reqStartTrial ops s).state.tableLawful := by
  refine withEntry_state (P := State.tableLawful) h fun i => ?_
  dsimp only
  split
  · exact h
  · exact h
  · exact h
  next hl =>
    split
    · exact h
    next hidle =>
      split
      · exact h
      next hlimit =>
        split
        · exact h
        next hkey =>
          split
          · exact h
          · have hslot := OperationSlot.trialEntry_of_isIdle (o := s.op.slot) (by simpa using hidle)
            have noTrial : ∀ j, (s.entry j).state ≠ .trial := fun j ht => by
              rw [(h.entries.onTrial j), hslot] at ht; cases ht
            have hlim : operandNat ops 1 < 256 := BitVec.isLt _
            refine (State.tableLawful_iff _).2 ⟨?_, show operandNat ops 1 ≤ 255 ∧ 0 < operandNat ops 1 by omega⟩
            refine h.entries.replace (i := i) (State.lt_of_state (by rw [hl]; nofun)) rfl
              ((h.entries.lawful i).beginTrial hl)
              (fun j _ => State.beginTrial_noClash (by simpa using hkey) (noTrial j)) (iff_of_true rfl rfl) (fun j hj => ?_)
              (Nat.zero_le _)
            exact iff_of_false (noTrial j) fun hi => hj (Option.some.inj hi).symm

theorem State.tableLawful.reqAbort {s : State} (h : s.tableLawful) (ops : List Byte) :
    (reqAbort ops s).state.tableLawful := by
  unfold Machine.reqAbort
  split
  · exact h.abortOperation
  · exact h.abortQuietly
  · exact h.storeAbort _
  · exact h.storeAbort _
  · exact h

/-- Every request's checks and effect keep the law; most of them touch neither an entry nor the operation slot. -/
theorem State.tableLawful.carryOut {s : State} (h : s.tableLawful) (k : RequestKind) (ops : List Byte) :
    (k.carryOut ops s).state.tableLawful := by
  cases k
  case identify | readStatus | takeIncidents | readCapture => exact h
  case clearAlerts => exact h.reqClearAlerts ops
  case loadEntry => exact h.reqLoadEntry ops
  case arm => exact h.reqArm ops
  case disarm => exact h.reqDisarm ops
  case free => exact h.reqFree ops
  case restart => exact h.reqRestart ops
  case startCapture => exact h.reqStartCapture ops
  case startTrial => exact h.reqStartTrial ops
  case abort => exact h.reqAbort ops
  case release =>
    show (if _ then _ else _ : State).tableLawful
    split
    · exact h.frame (by simp)
    · exact h
  case setAlerts =>
    simp only [RequestKind.carryOut, reqSetAlerts]
    split <;> exact h
  case setWindows =>
    simp only [RequestKind.carryOut, reqSetWindows]
    split <;> exact h
  case readEntry =>
    refine withEntry_state (P := State.tableLawful) h fun i => ?_
    dsimp only
    repeat' split
    all_goals exact h
  case loadSlot =>
    simp only [RequestKind.carryOut, reqLoadSlot]
    repeat' split
    all_goals exact h
  case readSlot =>
    simp only [RequestKind.carryOut, reqReadSlot]
    split <;> exact h
  case setMode =>
    simp only [RequestKind.carryOut, reqSetMode]
    repeat' split
    all_goals exact h

theorem State.tableLawful.respond {s : State} (h : s.tableLawful) (k : RequestKind) (ops : List Byte) :
    (k.respond ops s).state.tableLawful := by
  unfold RequestKind.respond
  split
  · exact h
  · exact h.carryOut k ops

theorem State.tableLawful.answer {s : State} (h : s.tableLawful) (p : Nat) (q : Request) : (s.answer p q).tableLawful := by
  have hr : (Machine.respond q.code q.operands s).state.tableLawful := by
    unfold Machine.respond
    split
    · exact h
    · exact h.respond _ _
  unfold State.answer
  exact hr.frame (by simp)

theorem State.tableLawful.takeBroadcast {s : State} (h : s.tableLawful) (q : Request) : (s.takeBroadcast q).tableLawful := by
  unfold State.takeBroadcast
  split
  · split
    · exact h.respond _ _
    · exact h
  · exact h

theorem State.tableLawful.completeRequest {s : State} (h : s.tableLawful) (q : Request) :
    (s.completeRequest q).tableLawful := by
  unfold State.completeRequest
  split
  · split
    · exact h.takeBroadcast q
    · split
      · split
        · exact h.answer _ q
        · exact h
      · exact h
  · exact h

/-! ### Train starts and ends (R13, R21, R102) -/

theorem State.tableLawful.trainEndInPath {s : State} (h : s.tableLawful) : s.trainEndInPath.tableLawful := by
  have ht : (if s.framer.freezeFlag = true then s else s.timingUpdate).tableLawful := by
    split
    · exact h
    · exact h.timingUpdate
  unfold State.trainEndInPath
  dsimp only
  generalize (if s.framer.freezeFlag = true then s else s.timingUpdate) = u at ht ⊢
  have hc : (if s.framer.freezeFlag = true then u.captureTrainEnd else u.captureTrainEnd.trialTrainEnd).tableLawful := by
    split
    · exact ht.captureTrainEnd
    · exact ht.captureTrainEnd.trialTrainEnd
  split
  · exact hc.clear _ _
  · exact hc

theorem State.tableLawful.trainEnd {s : State} (h : s.tableLawful) (byTe : Bool) : (s.trainEnd byTe).tableLawful := by
  unfold State.trainEnd
  dsimp only
  split
  · exact h.trainEndInPath.frame (by simp)
  · exact h.frame (by simp)

theorem State.tableLawful.endTrain {s : State} (h : s.tableLawful) (byTe : Bool) : (s.endTrain byTe).tableLawful := by
  refine State.tableLawful.trainEnd ?_ byTe
  repeat' split
  · exact h
  · exact h.frame (by simp)
  · exact h.frame (by simp)

theorem State.tableLawful.openTrain {s : State} (h : s.tableLawful) : s.openTrain.tableLawful :=
  State.tableLawful.trainAbort (h.frame (by simp))

theorem State.tableLawful.reopenTrain {s : State} (h : s.tableLawful) : s.reopenTrain.tableLawful :=
  (h.endTrain false).openTrain

theorem State.tableLawful.declareLoss {s : State} (h : s.tableLawful) : s.declareLoss.tableLawful := by
  have hr : (State.report 5 { s with
      framer := { s.framer with signal := .lost, silence := Config.silenceLimit } }).tableLawful := h.frame (by simp)
  unfold State.declareLoss
  dsimp only
  split
  · exact hr.trainEnd false
  · exact hr

/-! ### One symbol by the parse position -/

theorem State.tableLawful.deliver {s : State} (h : s.tableLawful) (r : RecordProgress) : (s.deliver r).tableLawful := by
  unfold State.deliver
  split
  · exact h.completeData _
  · exact h.completeRequest _
  · exact h
  · exact h

theorem State.tableLawful.takeRecordByte {s : State} (h : s.tableLawful) (r : RecordProgress) (b : Byte) (err : Bool) :
    (s.takeRecordByte r b err).tableLawful := by
  unfold State.takeRecordByte
  dsimp only
  split
  · exact h.frame (by simp)
  split
  · unfold State.finishRecord
    dsimp only
    split
    · exact State.tableLawful.deliver (h.frame (by simp)) _
    · exact h.frame (by simp)
  · exact h.frame (by simp)

theorem State.tableLawful.takeUnexpected {s : State} (h : s.tableLawful) (x : Symbol) : (s.takeUnexpected x).tableLawful := by
  unfold State.takeUnexpected
  split
  · exact h.endTrain true
  · exact h.endTrain false
  · exact h.reopenTrain
  · exact h.frame (by simp)

theorem State.tableLawful.takeBody {s : State} (h : s.tableLawful) (x : Symbol) : (s.takeBody x).tableLawful := by
  cases x
  case fill => exact h.frame (t := s.bodyFill) (by simp)
  case md | mq | ma | mn => exact h.frame (t := s.openRecord _) (by simp)
  case data | err => exact h.frame (t := s.strayInBody) (by simp)
  case te => exact h.endTrain true
  case ta => exact h.endTrain false
  case ts => exact h.reopenTrain

theorem State.tableLawful.takeOutside {s : State} (h : s.tableLawful) (x : Symbol) : (s.takeOutside x).tableLawful := by
  unfold State.takeOutside
  split
  · exact h
  · exact h.openTrain
  · exact h.frame (by simp)

theorem State.tableLawful.takeHeader {s : State} (h : s.tableLawful) (due : Nat) (x : Symbol) :
    (s.takeHeader due x).tableLawful := by
  unfold State.takeHeader
  split
  · exact h
  · exact h.takeUnexpected _

theorem State.tableLawful.takeStatus {s : State} (h : s.tableLawful) (due : Nat) (x : Symbol) :
    (s.takeStatus due x).tableLawful := by
  unfold State.takeStatus
  split
  · exact h.frame (by simp)
  · exact h.takeUnexpected _

theorem State.tableLawful.takeRecord {s : State} (h : s.tableLawful) (r : RecordProgress) (x : Symbol) :
    (s.takeRecord r x).tableLawful := by
  have hc : s.cutRecord.tableLawful := h.frame (by simp)
  unfold State.takeRecord
  split
  · exact h.takeRecordByte _ _ _
  · exact h.takeRecordByte _ _ _
  · exact hc.takeBody _

theorem State.tableLawful.takeSkip {s : State} (h : s.tableLawful) (x : Symbol) : (s.takeSkip x).tableLawful := by
  have hp : (s.setPosition .body).tableLawful := h.frame (by simp)
  unfold State.takeSkip
  split
  · exact h.frame (by simp)
  · exact h.frame (by simp)
  · exact hp.takeBody _

theorem State.tableLawful.takeUnread {s : State} (h : s.tableLawful) (x : Symbol) : (s.takeUnread x).tableLawful := by
  unfold State.takeUnread
  split
  · split <;> exact h
  · exact h.takeUnexpected _

theorem State.tableLawful.takeSymbol {s : State} (h : s.tableLawful) (x : Symbol) : (s.takeSymbol x).tableLawful := by
  unfold State.takeSymbol
  cases s.framer.position with
  | outside => exact h.takeOutside x
  | header due => exact h.takeHeader due x
  | status due => exact h.takeStatus due x
  | body => exact h.takeBody x
  | record r => exact h.takeRecord r x
  | skip => exact h.takeSkip x
  | unread => exact h.takeUnread x

/-! ### One arrival, silence, and the commands -/

theorem State.tableLawful.limitIfDue {s : State} (h : s.tableLawful) : s.limitIfDue.tableLawful := by
  unfold State.limitIfDue State.limitBreak
  split
  · split
    · exact State.tableLawful.endTrain (h.frame (by simp)) false
    · exact h.endTrain false
  · exact h

theorem State.tableLawful.arrive {s : State} (h : s.tableLawful) (x : LineSymbol) : (s.arrive x).tableLawful := by
  unfold State.arrive
  split
  · have hm : State.tableLawful { (s.moveLine x) with framer := s.framer.hear } := h.frame (by simp)
    unfold State.hearSymbol State.takeArrival
    exact (hm.takeSymbol x.taken).limitIfDue.frame (by simp)
  · exact h.frame (by simp)

theorem State.tableLawful.arriveAll {s : State} (h : s.tableLawful) (xs : List LineSymbol) : (s.arriveAll xs).tableLawful := by
  induction xs generalizing s with
  | nil => exact h
  | cons x xs ih => exact ih (h.arrive x)

theorem State.tableLawful.arriveRequest {s : State} (h : s.tableLawful) (q : Request) : (s.arriveRequest q).tableLawful :=
  State.tableLawful.arriveAll (h.frame (by simp)) _

theorem State.tableLawful.fallSilent {s : State} (h : s.tableLawful) : s.fallSilent.tableLawful := by
  have hd : (if s.link.draining = true then s.finishDrain else s).tableLawful := by
    split
    · exact h.frame (by simp)
    · exact h
  unfold State.fallSilent
  dsimp only
  generalize (if s.link.draining = true then s.finishDrain else s) = u at hd ⊢
  split
  · split
    · exact hd.declareLoss
    · exact hd
  · exact h

theorem State.tableLawful.occur {s : State} (h : s.tableLawful) (o : Occasion) : (s.occur o).tableLawful := by
  cases o with
  | arrival x => exact h.arrive x
  | silence => exact h.fallSilent

theorem State.tableLawful.countSilence {s : State} (h : s.tableLawful) : s.countSilence.tableLawful := by
  unfold State.countSilence
  split
  · split
    · exact h
    · exact h.declareLoss
  · exact h

theorem State.tableLawful.symbolTime {s : State} (h : s.tableLawful) : s.symbolTime.tableLawful := by
  have hd : (if s.link.draining = true then s.drainTick else s).tableLawful := by
    split
    · exact h.frame (by simp)
    · exact h
  unfold State.symbolTime
  split
  · exact hd.countSilence
  · exact h

/-- A step named by what comes about is its event, or nothing (log 1). -/
theorem State.tableLawful.comesAbout {s t : State} (h : s.tableLawful) {named : State → State → Bool} {event : State → State}
    (he : ∀ u : State, u.tableLawful → (event u).tableLawful) (hs : s.comesAbout named event = .next t) : t.tableLawful := by
  have hq : s.quiet.tableLawful := h.frame (by simp)
  unfold State.comesAbout at hs
  dsimp only at hs
  split at hs <;> obtain rfl := Host.Outcome.next.inj hs
  · exact he _ hq
  · exact hq

/-- The blocks at their reset values (R68, R184). -/
theorem State.resetBlocks_tableLawful (s : State) : s.resetBlocks.tableLawful :=
  State.tableLawful_of_empty rfl rfl rfl (Nat.zero_le _)

/-- Every command keeps the law: a request is the arrival of its symbols, the others are arrivals, silences and resets. -/
theorem exec_tableLawful {c : Instr} {s t : State} (h : s.tableLawful) (hs : exec c s = .next t) : t.tableLawful := by
  have hq : s.quiet.tableLawful := h.frame (by simp)
  cases hc : requestOf c with
  | some q =>
    rw [exec_request hc] at hs
    obtain rfl := Host.Outcome.next.inj hs
    exact h.arriveRequest q
  | none =>
    cases c
    case powerOn =>
      obtain rfl := Host.Outcome.next.inj hs
      exact s.quiet.resetBlocks_tableLawful.frame ⟨rfl, rfl, rfl, rfl⟩
    case resetnAssert =>
      obtain rfl := Host.Outcome.next.inj hs
      have hb : (if s.powered = true then s.quiet.resetBlocks else s.quiet).tableLawful := by
        split
        · exact s.quiet.resetBlocks_tableLawful
        · exact hq
      exact hb.frame ⟨rfl, rfl, rfl, rfl⟩
    case resetnRelease =>
      simp only [exec, execResetnRelease] at hs
      split at hs <;> obtain rfl := Host.Outcome.next.inj hs
      · exact hq
      · exact hq.frame ⟨rfl, rfl, rfl, rfl⟩
    case symbolArrival x =>
      obtain rfl := Host.Outcome.next.inj hs
      exact hq.arrive x
    case lossOfSignal =>
      obtain rfl := Host.Outcome.next.inj hs
      exact hq.fallSilent
    case drainEnd =>
      obtain rfl := Host.Outcome.next.inj hs
      split
      · exact hq.frame (by simp)
      · exact hq
    case dataRecordCompletion =>
      obtain rfl := Host.Outcome.next.inj hs
      exact hq.arriveAll _
    case powerLoss =>
      obtain rfl := Host.Outcome.next.inj hs
      exact hq.frame ⟨rfl, rfl, rfl, rfl⟩
    case trainLimitBreak | joinWaitEntry | leavingThePath | noticePlacement =>
      simp only [exec, execTrainLimitBreak, execJoinWaitEntry, execLeavingThePath, execNoticePlacement] at hs
      exact h.comesAbout (fun u hu => hu.arrive _) hs
    case heldCountExpiry | periodExpiry | stale | captureTimeout | trialDone =>
      simp only [exec, execHeldCountExpiry, execPeriodExpiry, execStale, execCaptureTimeout, execTrialDone,
        State.comesAboutAtEnd] at hs
      exact h.comesAbout (fun u hu => hu.occur _) hs
    all_goals cases hc

/-- Settles O59: the law of the table is kept by every operation of the blocks, and a step is made of those. -/
theorem everyStepKeepsTheTableLawful : Obligations.EveryStepKeepsTheTableLawful := by
  unfold Obligations.EveryStepKeepsTheTableLawful
  intro s t h hs
  unfold step at hs
  split at hs
  · obtain rfl := Host.Outcome.next.inj hs
    exact State.tableLawful.symbolTime (h.frame (by simp))
  next c rest _ =>
    have hp : State.tableLawful { s with pending := rest } := h
    exact exec_tableLawful hp hs

end Sys2Proof.Machine
end

section
/-! PROOF. The two requests that take an entry out of use, DISARM and FREE, by the entry's state (R60, R61, R162, R163). -/

namespace Sys2Proof.Machine

/-- A request whose address names an entry comes to its effect on that entry (R65). -/
theorem withEntry_some {ops : List Byte} {s : State} {f : Nat → Response} {i : Nat}
    (h : s.resolve (operand ops 0) = some i) : withEntry ops s f = f i := by
  rw [withEntry, h]

/-- The state after an update, in the words of the statements. -/
theorem State.updateEntry_eq_set (s : State) (i : Nat) (f : Entry → Entry) :
    s.updateEntry i f = { s with table := { s.table with entries := s.table.entries.set i (f (s.entry i)) } } := by
  rw [State.updateEntry, modify_getD]; rfl

/-- A request that answers with the reply data of ARM (R161): its result, the index, and the entry's state in the part it leaves. -/
theorem entryAnswered {target tag code : Byte} {ops : List Byte} {s t : State} (k : RequestKind)
    (hk : requestKind code = some k) (ha : s.addressed target ops) (hmin : k.minimum ≤ ops.length) (hlen : 2 ≤ ops.length)
    {i : Nat} {result : Result} {st : EntryState}
    (hr : k.carryOut ops (s.afterRequest target tag code ops) = { result := result, data := entryReply i t, state := t })
    (hst : (t.entry i).state = st) :
    Host.Outcome.next (s.arriveRequest ⟨target, tag, code, ops⟩) =
      (Host.Outcome.next (t.replied target tag ops (byteOf result.code) [BitVec.ofNat 8 i, byteOf st.code]) :
        Host.Outcome State Fault Refusal) :=
  answered k hk ha hmin hr hlen (by rw [entryReply, hst]; rfl)

/-- DISARM on entry i, by the entry's state (R60). -/
theorem reqDisarm_byState {ops : List Byte} {s : State} {i : Nat} (h : s.resolve (operand ops 0) = some i) :
    ((s.entry i).state = .free → reqDisarm ops s = refuseEntry .empty i s) ∧
      ((s.entry i).state = .trial → reqDisarm ops s = refuseEntry .entryBusy i s) ∧
      ((s.entry i).state = .loaded → reqDisarm ops s = acceptEntry i s) ∧
      ((s.entry i).state = .armed → reqDisarm ops s = acceptEntry i (s.updateEntry i Entry.disarm)) := by
  refine ⟨?_, ?_, ?_, ?_⟩ <;> intro hs <;> simp only [reqDisarm, withEntry_some h, hs]

/-- FREE on entry i, by the entry's state (R61). -/
theorem reqFree_byState {ops : List Byte} {s : State} {i : Nat} (h : s.resolve (operand ops 0) = some i) :
    ((s.entry i).state = .free → reqFree ops s = acceptEntry i s) ∧
      ((s.entry i).state = .trial → reqFree ops s = refuseEntry .entryBusy i s) ∧
      ((s.entry i).state = .armed → reqFree ops s = refuseEntry .entryBusy i s) ∧
      ((s.entry i).state = .loaded → reqFree ops s = acceptEntry i (s.updateEntry i fun _ => Entry.empty)) := by
  refine ⟨?_, ?_, ?_, ?_⟩ <;> intro hs <;> simp only [reqFree, withEntry_some h, hs]

/-- Settles O14: by the entry's state, the four rows of DISARM's table. -/
theorem disarmTakesAnArmedEntryOut : Obligations.DisarmTakesAnArmedEntryOut := by
  unfold Obligations.DisarmTakesAnArmedEntryOut
  intro target tag address rest s i operands e after answers ha hlen hres hi
  obtain ⟨hfree, htrial, hloaded, harmed⟩ := reqDisarm_byState (ops := operands) (s := after) hres
  have answer {t : State} (result : Result) (st : EntryState)
      (hr : reqDisarm operands after = { result := result, data := entryReply i t, state := t })
      (hst : (t.entry i).state = st) : answers t (byteOf result.code) (byteOf st.code) :=
    entryAnswered .disarm rfl ha hlen hlen hr hst
  refine ⟨fun hs => ?_, fun hs => ?_, fun hs => ?_, fun hs => ?_⟩
  · exact answer .empty .free (hfree hs) hs
  · exact answer .entryBusy .trial (htrial hs) hs
  · exact answer .ok .loaded (hloaded hs) hs
  · have hans := answer .ok .loaded (harmed hs) (congrArg Entry.state (after.entry_updateEntry i Entry.disarm hi))
    rw [State.updateEntry_eq_set] at hans
    exact hans

/-- Settles O15: by the entry's state, the four rows of FREE's table. -/
theorem freeEmptiesALoadedEntry : Obligations.FreeEmptiesALoadedEntry := by
  unfold Obligations.FreeEmptiesALoadedEntry
  intro target tag address rest s i operands e after answers ha hlen hres hi
  obtain ⟨hfree, htrial, harmed, hloaded⟩ := reqFree_byState (ops := operands) (s := after) hres
  have answer {t : State} (result : Result) (st : EntryState)
      (hr : reqFree operands after = { result := result, data := entryReply i t, state := t })
      (hst : (t.entry i).state = st) : answers t (byteOf result.code) (byteOf st.code) :=
    entryAnswered .free rfl ha hlen hlen hr hst
  refine ⟨fun hs => ?_, fun hs => ?_, fun hs => ?_, fun hs => ?_⟩
  · exact answer .ok .free (hfree hs) hs
  · exact answer .entryBusy .trial (htrial hs) hs
  · exact answer .entryBusy .armed (harmed hs) hs
  · have hans := answer .ok .free (hloaded hs) (congrArg Entry.state (after.entry_updateEntry i (fun _ => Entry.empty) hi))
    rw [State.updateEntry_eq_set] at hans
    exact hans

end Sys2Proof.Machine
end

section
/-! PROOF. A data record that meets a part in OBSERVE, in a FREEZE train or bypassed goes through as it came (R28, R106, R122). -/

namespace Sys2Proof.Machine

/-! ### In the path -/

/-- A judged record passes in OBSERVE, whatever its entry's reaction (R106). -/
theorem State.react_observe {s : State} (h : s.link.mode = .observe) (o : Outcome) (d : DataRecord) : s.react o d = s := by
  have hf : s.fate o = .pass := by simp [State.fate, h]
  rw [State.react, hf]
  rfl

/-- The completion of a data record leaves the Delay Line alone in a FREEZE train and in OBSERVE (R106, R122). -/
theorem State.completeData_delay {s : State} (h : s.link.mode = .observe ∨ s.framer.freezeFlag = true) (d : DataRecord) :
    (s.completeData d).delay = s.delay := by
  unfold State.completeData
  dsimp only
  split
  · split
    · simp
    next hf =>
      have hm : s.link.mode = .observe := h.resolve_right (by simpa using hf)
      rw [State.react_observe (by simpa using hm)]
      simp
  · rfl

/-- The body of a readable train has the header's FREEZE flag in force (R6). -/
theorem Framer.freezeFlag_body {f : Framer} (h : f.position = .body) : f.freezeFlag = f.flags.getLsbD 1 := by
  simp [Framer.freezeFlag, Framer.readable, h]

/-! ### Bypassed -/

section

/-- The part stands outside the path, with all that a record could move in it as in o (R28). -/
structure State.AsideAs (o s : State) : Prop where
  outOfPath : s.inPath = false
  table : s.table = o.table
  queue : s.queue = o.queue
  op : s.op = o.op
  reaction : s.reaction = o.reaction

variable {o s t : State}

/-- What moves none of these parts leaves the part aside. -/
theorem State.AsideAs.frame (h : o.AsideAs s)
    (ht : t.link.state.inPath = s.link.state.inPath ∧ t.table = s.table ∧ t.queue = s.queue ∧ t.op = s.op ∧
      t.reaction = s.reaction) : o.AsideAs t := by
  obtain ⟨hi, htab, hq, hop, hr⟩ := ht
  exact ⟨hi.trans h.outOfPath, htab.trans h.table, hq.trans h.queue, hop.trans h.op, hr.trans h.reaction⟩

/-- Causes 1 to 4 go unreported outside the path (R22). -/
theorem State.AsideAs.reportInPath_eq (h : o.AsideAs s) (cause : Nat) : s.reportInPath cause = s := by
  simp [State.reportInPath, h.outOfPath]

theorem Link.countClean_outside {l : Link} (h : l.state.inPath = false) (clean : Bool) :
    (l.countClean clean).state.inPath = false := by
  unfold Link.countClean
  split
  · split
    · rfl
    · exact h
  · exact h

theorem Link.countHeld_outside {l : Link} (h : l.state.inPath = false) : l.countHeld.state.inPath = false := by
  unfold Link.countHeld
  split
  · exact h
  split
  · rfl
  · exact h

/-- A break brings no bypassed part into the path: only a TE makes it join (R29, R30, R31, R35). -/
theorem State.linkTrainEnd_break_outside (h : s.inPath = false) (clean : Bool) :
    (s.linkTrainEnd s.link.state false clean).inPath = false := by
  unfold State.linkTrainEnd
  split
  · exact Link.countClean_outside h clean
  · rfl
  · exact Link.countHeld_outside h
  next hs => simp [State.inPath, hs, LinkState.inPath] at h
  next hs => simp [State.inPath, hs, LinkState.inPath] at h

theorem State.AsideAs.endTrain_break (h : o.AsideAs s) : o.AsideAs (s.endTrain false) := by
  have hi := h.outOfPath
  have hl := State.linkTrainEnd_break_outside hi false
  have he : s.endTrain false = s.trainEnd false := by simp [State.endTrain, h.reportInPath_eq]
  rw [he]
  unfold State.trainEnd
  simp only [hi, Bool.false_and, Bool.false_eq_true, if_false]
  exact h.frame ⟨hl.trans hi.symm, by simp⟩

theorem State.AsideAs.strayInBody (h : o.AsideAs s) : o.AsideAs s.strayInBody := by
  have hb : o.AsideAs s.breakRun := h.frame (by simp)
  refine h.frame ⟨by simp, by simp, ?_, by simp, by simp⟩
  simp [State.strayInBody, hb.reportInPath_eq]

theorem State.AsideAs.strayOutside (h : o.AsideAs s) : o.AsideAs s.strayOutside := by
  refine h.frame ⟨by simp, by simp, ?_, by simp, by simp⟩
  simp [State.strayOutside, h.reportInPath_eq]

theorem State.AsideAs.damagedRecord (h : o.AsideAs s) : o.AsideAs s.damagedRecord :=
  h.frame (by simp [State.damagedRecord, h.reportInPath_eq])

theorem State.AsideAs.cutRecord (h : o.AsideAs s) : o.AsideAs s.cutRecord :=
  h.frame (by simp [State.cutRecord, h.reportInPath_eq])

/-- No block takes a record that completes outside the path (R28). -/
theorem State.AsideAs.deliver (h : o.AsideAs s) (r : RecordProgress) : o.AsideAs (s.deliver r) := by
  have hd : s.deliver r = s := by
    unfold State.deliver
    cases r.kind <;> simp [State.completeData, State.completeRequest, h.outOfPath]
  rwa [hd]

theorem State.AsideAs.takeRecordByte (h : o.AsideAs s) (r : RecordProgress) (b : Byte) (err : Bool) :
    o.AsideAs (s.takeRecordByte r b err) := by
  have hb : o.AsideAs s.breakRun := h.frame (by simp)
  have hbody : o.AsideAs (s.breakRun.setPosition .body) := hb.frame (by simp)
  unfold State.takeRecordByte State.takeLength State.finishRecord
  dsimp only
  split
  · split
    · exact hb.damagedRecord.frame (by simp)
    · exact hb.frame (by simp)
  · split
    · split
      · exact hbody.deliver _
      · exact hbody.damagedRecord
    · exact hb.frame (by simp)

/-- A bypassed part reads the header for the JOIN flag only (R35). -/
theorem State.AsideAs.headerRead (h : o.AsideAs s) : o.AsideAs s.headerRead := by
  have hj : s.headerRead.inPath = false := by
    have hi : State.inPath { s with alert := { s.alert with noticeRun := 0 } } = false := h.outOfPath
    unfold State.headerRead
    dsimp only
    rw [hi, if_neg Bool.false_ne_true, State.takeJoinFlag]
    split
    · rfl
    · exact hi
  exact h.frame ⟨hj.trans h.outOfPath.symm, by simp⟩

theorem State.AsideAs.takeStatusByte (h : o.AsideAs s) (due : Nat) (b : Byte) : o.AsideAs (s.takeStatusByte due b) := by
  unfold State.takeStatusByte
  dsimp only
  split
  · exact h.frame (by simp)
  · exact State.AsideAs.headerRead (h.frame (by simp))

theorem State.AsideAs.takeBody (h : o.AsideAs s) {x : Symbol} (hx : x.endsTrain = false) : o.AsideAs (s.takeBody x) := by
  cases x
  case fill => exact h.frame (t := s.bodyFill) (by simp)
  case md | mq | ma | mn => exact h.frame (t := s.openRecord _) (by simp)
  case data | err => exact h.strayInBody
  all_goals cases hx

theorem State.AsideAs.takeOutside (h : o.AsideAs s) {x : Symbol} (hx : x.endsTrain = false) :
    o.AsideAs (s.takeOutside x) := by
  unfold State.takeOutside
  split
  · exact h
  · cases hx
  · exact h.strayOutside

theorem State.AsideAs.takeUnexpected (h : o.AsideAs s) {x : Symbol} (hx : x.endsTrain = false) :
    o.AsideAs (s.takeUnexpected x) := by
  unfold State.takeUnexpected
  split
  case h_4 => exact h.frame (by simp)
  all_goals cases hx

theorem State.AsideAs.takeHeader (h : o.AsideAs s) (due : Nat) {x : Symbol} (hx : x.endsTrain = false) :
    o.AsideAs (s.takeHeader due x) := by
  unfold State.takeHeader
  split
  · exact h.frame (by simp)
  · exact h.takeUnexpected hx

theorem State.AsideAs.takeStatus (h : o.AsideAs s) (due : Nat) {x : Symbol} (hx : x.endsTrain = false) :
    o.AsideAs (s.takeStatus due x) := by
  unfold State.takeStatus
  split
  · exact h.takeStatusByte due _
  · exact h.takeUnexpected hx

theorem State.AsideAs.takeRecord (h : o.AsideAs s) (r : RecordProgress) {x : Symbol} (hx : x.endsTrain = false) :
    o.AsideAs (s.takeRecord r x) := by
  unfold State.takeRecord
  split
  · exact h.takeRecordByte r _ _
  · exact h.takeRecordByte r _ _
  · exact h.cutRecord.takeBody hx

theorem State.AsideAs.takeSkip (h : o.AsideAs s) {x : Symbol} (hx : x.endsTrain = false) : o.AsideAs (s.takeSkip x) := by
  have hp : o.AsideAs (s.setPosition .body) := h.frame (by simp)
  unfold State.takeSkip
  split
  · exact h.frame (by simp)
  · exact h.frame (by simp)
  · exact hp.takeBody hx

theorem State.AsideAs.takeUnread (h : o.AsideAs s) {x : Symbol} (hx : x.endsTrain = false) : o.AsideAs (s.takeUnread x) := by
  unfold State.takeUnread
  split
  · split <;> exact h.frame (by simp)
  · exact h.takeUnexpected hx

/-- A symbol that neither opens nor ends a train moves none of these parts while the part is bypassed (R28, R102). -/
theorem State.AsideAs.takeSymbol (h : o.AsideAs s) {x : Symbol} (hx : x.endsTrain = false) : o.AsideAs (s.takeSymbol x) := by
  unfold State.takeSymbol
  cases s.framer.position with
  | outside => exact h.takeOutside hx
  | header due => exact h.takeHeader due hx
  | status due => exact h.takeStatus due hx
  | body => exact h.takeBody hx
  | record r => exact h.takeRecord r hx
  | skip => exact h.takeSkip hx
  | unread => exact h.takeUnread hx

theorem State.AsideAs.limitIfDue (h : o.AsideAs s) : o.AsideAs s.limitIfDue := by
  unfold State.limitIfDue State.limitBreak
  split
  · split
    · exact h.cutRecord.endTrain_break
    · exact h.endTrain_break
  · exact h

/-- Outside the path there is nothing to leave (R32). -/
theorem State.AsideAs.leaveIfDue_eq (h : o.AsideAs s) : s.leaveIfDue = s := by
  refine State.leaveIfDue_none (.inl fun hs => ?_)
  have hi := h.outOfPath
  simp [State.inPath, hs, LinkState.inPath] at hi

theorem State.AsideAs.arrive (h : o.AsideAs s) {x : LineSymbol} (hx : x.taken.endsTrain = false) : o.AsideAs (s.arrive x) := by
  unfold State.arrive State.hearSymbol
  split
  · have hm : o.AsideAs { (s.moveLine x) with framer := s.framer.hear } := h.frame (by simp)
    have ht : o.AsideAs (s.takeArrival x) := hm.takeSymbol hx
    rw [ht.limitIfDue.leaveIfDue_eq]
    exact ht.limitIfDue
  · exact h.frame (by simp)

/-- The passive bypass sends on what arrives (R28). -/
theorem State.AsideAs.arrive_dn (h : o.AsideAs s) (hd : s.link.draining = false) (x : LineSymbol) :
    (s.arrive x).dn = s.dn ++ [x] := by
  have hm : (s.moveLine x).dn = s.dn ++ [x] := by simp [State.moveLine, hd, h.outOfPath, State.emit]
  unfold State.arrive State.hearSymbol
  split
  · simpa [State.takeArrival] using hm
  · rfl

/-- A run of symbols none of which ends a train goes through a bypassed part and moves none of these parts (R28). -/
theorem State.AsideAs.arriveAll {xs : List LineSymbol} (hx : ∀ x ∈ xs, x.taken.endsTrain = false) (h : o.AsideAs s)
    (hd : s.link.draining = false) : o.AsideAs (s.arriveAll xs) ∧ (s.arriveAll xs).dn = s.dn ++ xs := by
  induction xs generalizing s with
  | nil => exact ⟨h, by simp [State.arriveAll]⟩
  | cons x xs ih =>
    obtain ⟨hx, hxs⟩ := List.forall_mem_cons.1 hx
    obtain ⟨ha, hdn⟩ := ih hxs (h.arrive hx) (by simpa using hd)
    exact ⟨ha, by rw [State.arriveAll, hdn, h.arrive_dn hd]; simp⟩

end

/-! ### The statement -/

/-- No symbol of a record ends a train (R9). -/
theorem WireRecord.endsTrain_of_mem_symbols {r : WireRecord} {x : Symbol} (hx : x ∈ r.symbols) : x.endsTrain = false := by
  rcases List.mem_cons.1 hx with rfl | hx
  · cases r.kind <;> rfl
  · obtain ⟨b, -, rfl⟩ := List.mem_map.1 hx
    rfl

/-- Settles O55: in OBSERVE and in a FREEZE train a record's completion rewrites nothing; outside the path its symbols go from UP
to DN. -/
theorem inObserveBypassOrFreezeNoDataRecordIsTouched : Obligations.InObserveBypassOrFreezeNoDataRecordIsTouched := by
  unfold Obligations.InObserveBypassOrFreezeNoDataRecordIsTouched
  intro d s _ hL
  refine ⟨fun hready hmode => ?_, fun hi hd => ?_⟩
  · have ⟨_, _, _, hbody, _, _⟩ := hready
    have hpass : (s.afterRecord d.wire).link.mode = .observe ∨ (s.afterRecord d.wire).framer.freezeFlag = true :=
      hmode.imp id fun hf => (Framer.freezeFlag_body hbody).trans hf
    refine ⟨_, congrArg Host.Outcome.next (State.arriveData_ready hready hL), ?_, ?_⟩
    · rw [State.completeData_delay hpass]
      simp [State.afterRecord, Config.delayPlaces, DataRecord.wire]
    · simp [State.afterRecord, Config.delayPlaces, DataRecord.wire]
  · have hin : ∀ x ∈ d.wire.symbols.map LineSymbol.readable, x.taken.endsTrain = false := by
      intro x hx
      obtain ⟨y, hy, rfl⟩ := List.mem_map.1 hx
      exact WireRecord.endsTrain_of_mem_symbols hy
    have haside : s.AsideAs s.quiet := ⟨hi, rfl, rfl, rfl, rfl⟩
    obtain ⟨h, hdn⟩ := haside.arriveAll hin hd
    exact ⟨_, rfl, hdn, h.table, h.queue, h.op, h.reaction⟩

end Sys2Proof.Machine
end

section
/-! PROOF. The two requests that read out stored bytes, TAKE INCIDENTS and READ SLOT: what each returns, and that it fits the reply's L
bytes (R140, R154, R156). -/

namespace Sys2Proof.Machine

/-- The result of a reply that may leave part of what is held unsaid: PARTIAL has code 1, OK code 0 (R150). -/
theorem byteOf_partially_or_ok (c : Prop) [Decidable c] :
    byteOf (if c then Result.partially else .ok).code = if c then 1#8 else 0#8 := by
  split <;> rfl

/-! ### TAKE INCIDENTS (R154) -/

/-- The second byte of an incident item by its fields: its bits do not overlap, so joining them adds them (R190). -/
theorem Incident.item_eq (x : Incident) :
    x.item = [x.sequence, byteOf x.kind.code + (if x.entry.isSome then 64#8 else 0#8) + (if x.value.isSome then 128#8 else 0#8),
      byteOf (x.entry.getD 0), x.train, highByte (x.value.getD 0#16), lowByte (x.value.getD 0#16)] := by
  have join (k : IncidentKind) (e v : Bool) : fieldAt k.code 0 ||| bitAt e 6 ||| bitAt v 7 =
      byteOf k.code + (if e then 64#8 else 0#8) + (if v then 128#8 else 0#8) := by
    cases k <;> revert e v <;> decide
  rw [Incident.item, join]
  rfl

/-- An incident item is 6 bytes (R190). -/
theorem Incident.item_length (x : Incident) : x.item.length = 6 := rfl

/-- No more incidents are taken than 6-byte items fit in L-2 bytes (R154). -/
theorem takeCount_le_room (depth len maximum : Nat) : takeCount depth len maximum ≤ (len - 2) / 6 := by
  unfold takeCount
  split
  · exact Nat.min_le_right ..
  · exact (Nat.min_le_left ..).trans (Nat.min_le_right ..)

/-- The count, the depth left and the items taken fit in L bytes. -/
theorem reqTakeIncidents_fits {operands : List Byte} (hlen : 2 ≤ operands.length) (s : State) :
    (reqTakeIncidents operands s).data.length ≤ operands.length := by
  have hroom := takeCount_le_room s.queue.items.length operands.length (operandNat operands 0)
  simp only [reqTakeIncidents, List.length_append, List.length_cons, List.length_nil, List.length_flatMap, Incident.item_length,
    List.map_const', List.sum_replicate, List.length_take, smul_eq_mul]
  omega

/-- Settles O5: the item of the statement is the incident's image, and k is the count that the request takes. -/
theorem takeIncidentsReturnsTheOldest : Obligations.TakeIncidentsReturnsTheOldest := by
  unfold Obligations.TakeIncidentsReturnsTheOldest
  intro target tag maximum rest s operands depth room k item after ha hlen
  have hitem : item = Incident.item := by
    funext x
    rw [Incident.item_eq]
    cases hk : x.kind <;> simp only [item, hk] <;> rfl
  rw [hitem]
  refine answered .takeIncidents rfl ha hlen rfl (reqTakeIncidents_fits hlen _) ?_
  have hresult : byteOf (reqTakeIncidents operands after).result.code =
      if k < depth ∧ (maximum.toNat = 0 ∨ k < maximum.toNat) then 1#8 else 0#8 := byteOf_partially_or_ok _
  exact congrArg (fun result => State.replied target tag operands result _ _) hresult

/-! ### READ SLOT (R156) -/

/-- A slot number above 15 names no slot. -/
theorem reqReadSlot_above {operands : List Byte} (h : 15 < operandNat operands 0) (s : State) :
    reqReadSlot operands s = refuse .badValue [] s := if_pos h

/-- A slot number that names a slot: its length, and the bytes that fit after it. -/
theorem reqReadSlot_within {operands : List Byte} (h : ¬ 15 < operandNat operands 0) (s : State) :
    reqReadSlot operands s =
      { result := if operands.length - 1 < (s.slotContent (operandNat operands 0)).length then .partially else .ok
        data := byteOf (s.slotContent (operandNat operands 0)).length ::
          (s.slotContent (operandNat operands 0)).take (operands.length - 1)
        state := s } := if_neg h

/-- Settles O7, by whether the number names a slot. -/
theorem readSlotReturnsLengthAndBytes : Obligations.ReadSlotReturnsLengthAndBytes := by
  unfold Obligations.ReadSlotReturnsLengthAndBytes
  intro target tag slot rest s operands content after ha
  have hlen : 1 ≤ operands.length := Nat.succ_pos _
  by_cases hslot : 15 < slot.toNat
  · rw [if_pos hslot]
    exact answered .readSlot rfl ha hlen (reqReadSlot_above (operands := operands) hslot after) (Nat.zero_le _) rfl
  · rw [if_neg hslot]
    have hfits : (byteOf content.length :: content.take rest.length).length ≤ operands.length :=
      Nat.succ_le_succ (List.length_take_le ..)
    refine answered .readSlot rfl ha hlen (reqReadSlot_within (operands := operands) hslot after) hfits ?_
    rw [byteOf_partially_or_ok]
    rfl

end Sys2Proof.Machine
end

section
/-! PROOF. What every step keeps of the blocks: a property of the blocks that their operations keep is kept by every step. The capacities
and the agreement of the factors are such properties (R44, R64, R123, R129, R131, R132, R138, R139, R142, R174). -/

namespace Sys2Proof.Machine

/-! ### Properties of the blocks -/

/-- Two states whose blocks hold the same, as far as a block law looks: live fields of entries and the running operation are free, a
waiting notice may be gone, the notice run may have moved within its limit, and a new record in progress has a length that is allowed. -/
def State.SameBlocks (allowed : Nat → Prop) (s t : State) : Prop :=
  t.powered = s.powered ∧ t.table.entries.length = s.table.entries.length ∧ t.table.w0 = s.table.w0 ∧ t.table.w1 = s.table.w1 ∧
  t.reaction = s.reaction ∧ t.queue = s.queue ∧ t.op.fifo = s.op.fifo ∧
  t.alert.flags = s.alert.flags ∧ t.alert.levels = s.alert.levels ∧ t.alert.threshold = s.alert.threshold ∧
  t.alert.noticeEnable = s.alert.noticeEnable ∧ (t.alert.noticeWaiting = true → s.alert.noticeWaiting = true) ∧
  t.alert.alertn = s.alert.alertn ∧ (t.alert.noticeRun = s.alert.noticeRun ∨ t.alert.noticeRun ≤ 12) ∧
  (∀ r, t.framer.position = .record r → s.framer.position = .record r ∨ allowed r.length)

/-- A property of the blocks that each of the blocks' own operations keeps. `allowed` is what it asks of a payload's length. -/
structure BlockLaw (allowed : Nat → Prop) (P : State → Prop) : Prop where
  allowed_le : ∀ {n}, n ≤ 48 → allowed n
  allowed_mono : ∀ {m n}, m ≤ n → allowed n → allowed m
  record : ∀ {s r}, P s → s.framer.position = .record r → allowed r.length
  frame : ∀ {s t}, P s → s.SameBlocks allowed t → P t
  raise : ∀ {s} f, P s → f ≠ .isol → P (s.raise f)
  clearOpdone : ∀ {s}, P s → P (s.clearFactor .opdone)
  pushIncident : ∀ {s} k e v, P s → P (s.pushIncident k e v)
  dropIncidents : ∀ {s} n, P s → P { s with queue := { s.queue with items := s.queue.items.drop n } }
  clearFactors : ∀ {s} mask, P s → P (s.clearFactors mask)
  enterIsolation : ∀ {s}, P s → P s.enterIsolation
  endIsolation : ∀ {s}, P s → P s.endIsolation
  restartAlerts : ∀ {s}, P s → s.reaction.isolated = false → P s.restartAlerts
  emptyTable : ∀ {s}, P s → P { s with table := WatchTable.empty, reaction := { s.reaction with store := emptyStore } }
  windows : ∀ {s} w0 w1, P s → w0 ≤ 7 → w1 ≤ 7 → P { s with table := { s.table with w0 := w0, w1 := w1 } }
  fillSlot : ∀ {s} i c, P s → allowed c.length → P (s.fillSlot i c)
  fifo : ∀ {s} o, P s → o.fifo.length ≤ s.op.fifo.length ∨ o.fifo.length ≤ 512 → P { s with op := o }
  adopt : ∀ {s} levels threshold enable, P s → levelsLegal levels = true → 1 ≤ threshold → threshold ≤ 3 →
    P { s with alert := s.alert.adopt levels threshold enable }

/-! ### The number of entries -/

@[simp] theorem State.updateEntry_entries_length (i : Nat) (f : Entry → Entry) (s : State) :
    (s.updateEntry i f).table.entries.length = s.table.entries.length := by simp [State.updateEntry]

@[simp] theorem State.clearEntries_entries_length (scope : ClearScope) (s : State) :
    (s.clearEntries scope).table.entries.length = s.table.entries.length := by
  unfold State.clearEntries; split <;> simp

@[simp] theorem State.closeOperation_entries_length (c : EndCause) (h : TrialLeave) (s : State) :
    (s.closeOperation c h).table.entries.length = s.table.entries.length := by
  unfold State.closeOperation; split <;> simp

@[simp] theorem State.judgeTrial_entries_length (i : Nat) (d : DataRecord) (s : State) :
    (s.judgeTrial i d).table.entries.length = s.table.entries.length := by simp [State.judgeTrial]

/-! ### The record in progress -/

/-- No more payload bytes are read than the length byte says. -/
theorem RecordProgress.payload_length_le (r : RecordProgress) : r.payload.length ≤ r.length := List.length_take_le ..

/-- A byte taken after the length byte leaves the record's length. -/
theorem RecordProgress.take_length {r : RecordProgress} (hr : r.bytes.isEmpty = false) (b : Byte) (err : Bool) :
    (r.take b err).length = r.length := by
  unfold RecordProgress.take RecordProgress.length
  cases hb : r.bytes with
  | nil => simp [hb] at hr
  | cons x xs => simp

/-- No header byte opens a record. -/
theorem Framer.takeHeaderByte_position (due : Nat) (b : Byte) (f : Framer) (r : RecordProgress) :
    (f.takeHeaderByte due b).position ≠ .record r := by
  unfold Framer.takeHeaderByte
  repeat' split
  all_goals nofun

/-! ### The operations of the blocks, one by one -/

section

variable {allowed : Nat → Prop} {P : State → Prop} {s : State} (K : BlockLaw allowed P)
include K

theorem BlockLaw.same (h : P s) {t : State} (hp : t.framer.position = s.framer.position) (hn : t.alert.noticeRun = s.alert.noticeRun)
    (ht : t.powered = s.powered ∧ t.table.entries.length = s.table.entries.length ∧ t.table.w0 = s.table.w0 ∧
      t.table.w1 = s.table.w1 ∧ t.reaction = s.reaction ∧ t.queue = s.queue ∧ t.op.fifo = s.op.fifo ∧
      t.alert.flags = s.alert.flags ∧ t.alert.levels = s.alert.levels ∧ t.alert.threshold = s.alert.threshold ∧
      t.alert.noticeEnable = s.alert.noticeEnable ∧ (t.alert.noticeWaiting = true → s.alert.noticeWaiting = true) ∧
      t.alert.alertn = s.alert.alertn) : P t := by
  obtain ⟨h1, h2, h3, h4, h5, h6, h7, h8, h9, h10, h11, h12, h13⟩ := ht
  exact K.frame h ⟨h1, h2, h3, h4, h5, h6, h7, h8, h9, h10, h11, h12, h13, .inl hn, fun r hr => .inl (hp ▸ hr)⟩

/-- The Link Controller is no block. -/
theorem BlockLaw.setLink (h : P s) (l : Link) : P { s with link := l } := K.same h rfl rfl (by simp)

/-- Of the Framer only the record in progress is looked at. -/
theorem BlockLaw.setFramer (h : P s) (f : Framer)
    (hf : ∀ r, f.position = .record r → s.framer.position = .record r ∨ allowed r.length) : P { s with framer := f } :=
  K.frame h (by simpa [State.SameBlocks] using hf)

theorem BlockLaw.report (h : P s) (cause : Nat) : P (s.report cause) := K.pushIncident _ _ _ (K.raise _ h nofun)

theorem BlockLaw.reportInPath (h : P s) (cause : Nat) : P (s.reportInPath cause) := by
  unfold State.reportInPath
  split
  · exact K.report h cause
  · exact h

theorem BlockLaw.updateEntry (h : P s) (i : Nat) (f : Entry → Entry) : P (s.updateEntry i f) :=
  K.same h (by simp) (by simp) (by simp)

/-- A mere change of the operation slot's content. -/
theorem BlockLaw.moveOperation (h : P s) (o : OperationUnit) (ho : o.fifo = s.op.fifo) : P { s with op := o } :=
  K.fifo o h (.inl (by rw [ho]))

theorem BlockLaw.closeOperation (h : P s) (c : EndCause) (how : TrialLeave) : P (s.closeOperation c how) :=
  K.same h (by simp) (by simp) (by simp)

theorem BlockLaw.endOperation (h : P s) (c : EndCause) (how : TrialLeave) : P (s.endOperation c how) := by
  unfold State.endOperation
  split
  · exact h
  · exact K.raise _ (K.closeOperation h c how) nofun

theorem BlockLaw.tripAbort (h : P s) : P s.tripAbort := by
  unfold State.tripAbort
  split
  · exact K.endOperation h _ _
  · exact h

theorem BlockLaw.trainAbort (h : P s) : P s.trainAbort := by
  unfold State.trainAbort
  split
  · exact K.endOperation h _ _
  · exact h

/-- A capture takes a match: what it stores fits the FIFO (R174). -/
theorem BlockLaw.captureRecord (h : P s) (d : DataRecord) : P (s.captureRecord d) := by
  unfold State.captureRecord
  split
  next c hc =>
    split
    · have hm : P { s with op := s.op.countMatch c d s.framer.sequence } := by
        refine K.fifo _ h ?_
        unfold OperationUnit.countMatch
        dsimp only
        split
        next hfit =>
          simp only [List.length_append, DataRecord.captureImage, List.length_cons, List.length_nil]
          unfold Config.captureCapacity at hfit
          omega
        · exact .inl (Nat.le_refl _)
      dsimp only
      split
      · exact K.endOperation hm _ _
      · exact hm
    · exact h
  · exact h

theorem BlockLaw.captureTrainEnd (h : P s) : P s.captureTrainEnd := by
  unfold State.captureTrainEnd
  split
  next c hc =>
    have hm := K.moveOperation h { s.op with slot := .capture { c with without := c.without + 1 } } rfl
    dsimp only
    split
    · exact K.endOperation hm _ _
    · exact hm
  · exact h

theorem BlockLaw.trialTrainEnd (h : P s) : P s.trialTrainEnd := by
  unfold State.trialTrainEnd
  split
  next t ht =>
    have hm := K.moveOperation h { s.op with slot := .trial { t with counted := t.counted + 1 } } rfl
    dsimp only
    split
    · exact K.endOperation hm _ _
    · exact hm
  · exact h

theorem BlockLaw.timeEntriesFrom (h : P s) (n i : Nat) : P (s.timeEntriesFrom n i) := by
  induction n generalizing i s with
  | zero => exact h
  | succ n ih =>
    refine ih ?_ (i + 1)
    have hu := K.updateEntry h i Entry.timingUpdate
    unfold State.timeEntry
    dsimp only
    split
    · exact K.raise _ (K.pushIncident _ _ _ hu) nofun
    · exact hu

theorem BlockLaw.clear (h : P s) (mask : PerFactor Bool) (scope : ClearScope) : P (s.clear mask scope) :=
  K.clearFactors mask (K.same h (by simp) (by simp) (by simp))

theorem BlockLaw.restartWarm (h : P s) : P s.restartWarm := by
  have hi := K.endIsolation (K.closeOperation h .aborted .absent)
  have hm := K.same hi (t := { (s.closeOperation .aborted .absent).endIsolation with
      table := { (s.closeOperation .aborted .absent).endIsolation.table with
        entries := (s.closeOperation .aborted .absent).endIsolation.table.entries.map Entry.restartWarm } })
    rfl rfl (by simp)
  exact K.restartAlerts (K.fifo _ hm (.inr (Nat.zero_le _))) rfl

theorem BlockLaw.restartTable (h : P s) : P s.restartTable :=
  K.restartAlerts (K.fifo _ (K.emptyTable (K.endIsolation (K.closeOperation h .aborted .absent))) (.inr (Nat.zero_le _))) rfl

/-! ### The judgement of a data record -/

theorem BlockLaw.tripActions (h : P s) (i : Nat) (r : Reaction) (v : Option Word) : P (s.tripActions i r v) := by
  have ht := K.raise .trip (K.pushIncident .trip (some i) v h) nofun
  refine K.tripAbort ?_
  unfold State.tripIsolation
  split
  · exact K.enterIsolation ht
  · exact ht

theorem BlockLaw.judge (h : P s) {d : DataRecord} (hd : allowed d.payload.length) : P (s.judge d) := by
  unfold State.judge
  split
  · exact h
  next i hi =>
    split
    · exact K.same h (by simp) (by simp) (by simp)
    · have hu := K.updateEntry h i fun x => { x with live := (s.entry i).judgedLive d.payload }
      unfold State.judgeArmed
      dsimp only
      split
      · exact K.tripActions hu _ _ _
      split
      · exact K.pushIncident _ _ _ hu
      split
      · exact K.fillSlot _ _ hu hd
      · exact hu

theorem BlockLaw.completeData (h : P s) {d : DataRecord} (hd : allowed d.payload.length) : P (s.completeData d) := by
  unfold State.completeData
  dsimp only
  split
  · have hc := K.captureRecord h d
    split
    · exact hc
    · exact K.same (K.judge hc hd) (by simp) (by simp) (by simp)
  · exact h

/-! ### The requests -/

theorem BlockLaw.reqClearAlerts (h : P s) (ops : List Byte) : P (reqClearAlerts ops s).state := by
  unfold Machine.reqClearAlerts
  dsimp only
  split
  · exact K.clear h _ _
  · split
    · exact h
    · exact K.clear h _ _
  · exact K.clear h _ _
  · exact h

theorem BlockLaw.reqSetAlerts (h : P s) (ops : List Byte) : P (reqSetAlerts ops s).state := by
  unfold Machine.reqSetAlerts
  dsimp only
  split
  next hl =>
    simp only [Bool.and_eq_true, decide_eq_true_eq] at hl
    obtain ⟨⟨hlevels, h1⟩, h3⟩ := hl
    exact K.adopt _ _ _ h hlevels h1 h3
  · exact h

theorem BlockLaw.reqSetWindows (h : P s) (ops : List Byte) : P (reqSetWindows ops s).state := by
  unfold Machine.reqSetWindows
  dsimp only
  split
  next hw => exact K.windows _ _ h hw.1 hw.2
  · exact h

theorem BlockLaw.reqLoadEntry (h : P s) (ops : List Byte) : P (reqLoadEntry ops s).state := by
  refine withEntry_state h fun i => ?_
  dsimp only
  split
  · exact h
  split
  · exact h
  · exact K.updateEntry h _ _

theorem BlockLaw.reqArm (h : P s) (ops : List Byte) : P (reqArm ops s).state := by
  refine withEntry_state h fun i => ?_
  cases (s.entry i).state
  case loaded =>
    dsimp only
    split
    · exact h
    split
    · exact h
    · exact K.updateEntry h _ _
  all_goals exact h

theorem BlockLaw.reqDisarm (h : P s) (ops : List Byte) : P (reqDisarm ops s).state := by
  refine withEntry_state h fun i => ?_
  cases (s.entry i).state
  case armed => exact K.updateEntry h _ _
  all_goals exact h

theorem BlockLaw.reqFree (h : P s) (ops : List Byte) : P (reqFree ops s).state := by
  refine withEntry_state h fun i => ?_
  cases (s.entry i).state
  case loaded => exact K.updateEntry h _ _
  all_goals exact h

theorem BlockLaw.reqLoadSlot (h : P s) (ops : List Byte) : P (reqLoadSlot ops s).state := by
  unfold Machine.reqLoadSlot
  dsimp only
  split
  · exact h
  split
  · exact h
  split
  · exact h
  next hfit _ =>
    refine K.fillSlot _ _ h (K.allowed_le ?_)
    have hle := List.length_take_le (operandNat ops 1) (ops.drop 2)
    unfold Config.maxPayload at hfit
    omega

theorem BlockLaw.reqSetMode (h : P s) (ops : List Byte) : P (reqSetMode ops s).state := by
  have store (m : PendingMode) : P (acceptMode m s).state := K.same h rfl rfl (by simp [acceptMode])
  unfold Machine.reqSetMode
  split
  · exact store _
  · exact store _
  · split
    · exact h
    split
    · exact h
    split
    · exact h
    · exact store _
  · exact h

theorem BlockLaw.reqStartCapture (h : P s) (ops : List Byte) : P (reqStartCapture ops s).state := by
  unfold Machine.reqStartCapture
  dsimp only
  split
  · exact h
  split
  · exact h
  split
  · exact h
  · refine K.fifo _ h (.inl ?_)
    dsimp only
    split
    · exact Nat.zero_le _
    · exact Nat.le_refl _

theorem BlockLaw.reqStartTrial (h : P s) (ops : List Byte) : P (reqStartTrial ops s).state := by
  refine withEntry_state h fun i => ?_
  dsimp only
  cases (s.entry i).state
  case loaded =>
    dsimp only
    split
    · exact h
    split
    · exact h
    split
    · exact h
    split
    · exact h
    · exact K.same (K.updateEntry h i Entry.beginTrial) rfl rfl (by simp [acceptEntry])
  all_goals exact h

theorem BlockLaw.reqAbort (h : P s) (ops : List Byte) : P (reqAbort ops s).state := by
  have store (p : PendingAbort) : P (s.storeAbort p) := K.same h (by simp) (by simp) (by simp)
  unfold Machine.reqAbort
  split
  · exact K.endOperation h _ _
  · exact K.clearOpdone (K.closeOperation h _ _)
  · exact store _
  · exact store _
  · exact h

theorem BlockLaw.carryOut (h : P s) (k : RequestKind) (ops : List Byte) : P (k.carryOut ops s).state := by
  cases k
  case identify | readStatus => exact h
  case takeIncidents => exact K.dropIncidents _ h
  case readCapture => exact K.fifo _ h (.inl (by simp))
  case setAlerts => exact K.reqSetAlerts h ops
  case clearAlerts => exact K.reqClearAlerts h ops
  case setWindows => exact K.reqSetWindows h ops
  case loadEntry => exact K.reqLoadEntry h ops
  case arm => exact K.reqArm h ops
  case disarm => exact K.reqDisarm h ops
  case free => exact K.reqFree h ops
  case loadSlot => exact K.reqLoadSlot h ops
  case setMode => exact K.reqSetMode h ops
  case startCapture => exact K.reqStartCapture h ops
  case startTrial => exact K.reqStartTrial h ops
  case abort => exact K.reqAbort h ops
  case release =>
    show P (if _ then _ else _)
    split
    · exact K.endIsolation h
    · exact h
  case restart =>
    simp only [RequestKind.carryOut, Machine.reqRestart]
    split
    · exact K.restartWarm h
    · exact K.restartTable h
    · exact h
  case readEntry =>
    refine withEntry_state h fun i => ?_
    dsimp only
    repeat' split
    all_goals exact h
  case readSlot =>
    simp only [RequestKind.carryOut, Machine.reqReadSlot]
    split <;> exact h

theorem BlockLaw.respond (h : P s) (code : Byte) (ops : List Byte) : P (respond code ops s).state := by
  unfold Machine.respond
  split
  · exact h
  · unfold RequestKind.respond
    split
    · exact h
    · exact K.carryOut h _ _

theorem BlockLaw.completeRequest (h : P s) (q : Request) : P (s.completeRequest q) := by
  have answered (p : Nat) : P (s.answer p q) := K.same (K.respond h q.code q.operands) (by simp) (by simp) (by simp [State.answer])
  unfold State.completeRequest State.takeBroadcast
  split
  · split
    · split
      · split
        · unfold RequestKind.respond
          split
          · exact h
          · exact K.carryOut h _ _
        · exact h
      · exact h
    · split
      · split
        · exact answered _
        · exact h
      · exact h
  · exact h

/-! ### Train starts and ends -/

theorem BlockLaw.trainEndInPath (h : P s) : P s.trainEndInPath := by
  have ht : P (if s.framer.freezeFlag = true then s else s.timingUpdate) := by
    split
    · exact h
    · exact K.timeEntriesFrom h _ _
  unfold State.trainEndInPath
  dsimp only
  generalize (if s.framer.freezeFlag = true then s else s.timingUpdate) = u at ht ⊢
  have hc : P (if s.framer.freezeFlag = true then u.captureTrainEnd else u.captureTrainEnd.trialTrainEnd) := by
    split
    · exact K.captureTrainEnd ht
    · exact K.trialTrainEnd (K.captureTrainEnd ht)
  split
  · exact K.clear hc _ _
  · exact hc

/-- A change that takes the Framer out of a record and the notice run to 0. -/
theorem BlockLaw.leaveRecord (h : P s) {t : State} (hp : ∀ r, t.framer.position ≠ .record r) (hn : t.alert.noticeRun = 0)
    (ht : t.powered = s.powered ∧ t.table.entries.length = s.table.entries.length ∧ t.table.w0 = s.table.w0 ∧
      t.table.w1 = s.table.w1 ∧ t.reaction = s.reaction ∧ t.queue = s.queue ∧ t.op.fifo = s.op.fifo ∧
      t.alert.flags = s.alert.flags ∧ t.alert.levels = s.alert.levels ∧ t.alert.threshold = s.alert.threshold ∧
      t.alert.noticeEnable = s.alert.noticeEnable ∧ (t.alert.noticeWaiting = true → s.alert.noticeWaiting = true) ∧
      t.alert.alertn = s.alert.alertn) : P t := by
  obtain ⟨h1, h2, h3, h4, h5, h6, h7, h8, h9, h10, h11, h12, h13⟩ := ht
  exact K.frame h ⟨h1, h2, h3, h4, h5, h6, h7, h8, h9, h10, h11, h12, h13, .inr (by omega), fun r hr => absurd hr (hp r)⟩

theorem BlockLaw.trainEnd (h : P s) (byTe : Bool) : P (s.trainEnd byTe) := by
  have hpath : P (if s.inPath = true then s.trainEndInPath else s) := by
    split
    · exact K.trainEndInPath h
    · exact h
  unfold State.trainEnd
  dsimp only
  generalize (if s.inPath = true then s.trainEndInPath else s) = u at hpath ⊢
  exact K.leaveRecord hpath nofun rfl (by simp)

theorem BlockLaw.endTrain (h : P s) (byTe : Bool) : P (s.endTrain byTe) := by
  refine K.trainEnd ?_ byTe
  repeat' split
  · exact h
  · exact K.reportInPath h _
  · exact K.reportInPath h _

theorem BlockLaw.openTrain (h : P s) : P s.openTrain := K.trainAbort (K.leaveRecord h nofun rfl (by simp))

theorem BlockLaw.reopenTrain (h : P s) : P s.reopenTrain := K.openTrain (K.endTrain h false)

theorem BlockLaw.declareLoss (h : P s) : P s.declareLoss := by
  have hr : P (State.report 5 { s with framer := { s.framer with signal := .lost, silence := Config.silenceLimit } }) := by
    refine K.report (K.setFramer h _ ?_) 5
    exact fun r hr => .inl hr
  have he : P (if s.framer.trainOpen = true
      then (State.report 5 { s with framer := { s.framer with signal := .lost, silence := Config.silenceLimit } }).trainEnd false
      else State.report 5 { s with framer := { s.framer with signal := .lost, silence := Config.silenceLimit } }) := by
    split
    · exact K.trainEnd hr false
    · exact hr
  exact K.setLink he _

/-! ### One symbol by the parse position -/

theorem BlockLaw.breakRun (h : P s) : P s.breakRun :=
  K.frame h (by simp [State.SameBlocks, State.breakRun]; exact fun r hr => .inl hr)

/-- The Framer comes to a position that is in no record. -/
theorem BlockLaw.setPosition (h : P s) {p : ParsePosition} (hp : ∀ r, p ≠ .record r) : P (s.setPosition p) :=
  K.setFramer h _ fun r hr => absurd hr (hp r)

theorem BlockLaw.setRecord (h : P s) {r : RecordProgress} (hr : allowed r.length) : P (s.setPosition (.record r)) :=
  K.setFramer h _ fun _ hr' => .inr (by cases hr'; exact hr)

theorem BlockLaw.markFaulted (h : P s) : P s.markFaulted := K.setFramer h _ fun _ hr => .inl hr

theorem BlockLaw.damagedRecord (h : P s) : P s.damagedRecord := K.markFaulted (K.reportInPath h 1)

theorem BlockLaw.openRecord (h : P s) (k : RecordKind) : P (s.openRecord k) :=
  K.setRecord (K.breakRun h) (K.allowed_le (Nat.zero_le _))

theorem BlockLaw.deliver (h : P s) {r : RecordProgress} (hr : allowed r.length) : P (s.deliver r) := by
  unfold State.deliver
  split
  · exact K.completeData h (K.allowed_mono r.payload_length_le hr)
  · exact K.completeRequest h _
  · exact h
  · exact h

theorem BlockLaw.takeRecordByte (h : P s) {r : RecordProgress} (hr : allowed r.length) (b : Byte) (err : Bool) :
    P (s.takeRecordByte r b err) := by
  have hb := K.breakRun h
  unfold State.takeRecordByte State.takeLength State.finishRecord
  dsimp only
  split
  · split
    · exact K.setPosition (K.damagedRecord hb) (by simp)
    next hlen =>
      have hle : b.toNat ≤ 48 := by
        rw [Bool.or_eq_true, not_or] at hlen
        exact Nat.le_of_not_lt fun hlt => hlen.2 (decide_eq_true hlt)
      exact K.setRecord hb (K.allowed_le hle)
  next hne =>
    have hr' : allowed (r.take b err).length := by rwa [RecordProgress.take_length (by simpa using hne)]
    split
    · split
      · exact K.deliver (K.setPosition hb (by simp)) hr'
      · exact K.damagedRecord (K.setPosition hb (by simp))
    · exact K.setRecord hb hr'

theorem BlockLaw.takeBody (h : P s) (x : Symbol) : P (s.takeBody x) := by
  cases x
  case fill =>
    refine K.frame h ?_
    have hrun : s.bodyFill.alert.noticeRun = s.alert.noticeRun ∨ s.bodyFill.alert.noticeRun ≤ 12 := by
      unfold State.bodyFill State.placeNotice State.extendRun
      repeat' split
      all_goals simp [Config.noticeRunLength]
    have hwait : s.bodyFill.alert.noticeWaiting = true → s.alert.noticeWaiting = true := by
      unfold State.bodyFill State.placeNotice
      split <;> simp
    simp only [State.SameBlocks, State.takeBody, State.bodyFill_frame, true_and]
    exact ⟨hwait, hrun, fun r hr => .inl hr⟩
  case md | mq | ma | mn => exact K.openRecord h _
  case data | err =>
    have hb : P (if s.breakRun.framer.strayReported then s.breakRun else s.breakRun.reportInPath 2) := by
      split
      · exact K.breakRun h
      · exact K.reportInPath (K.breakRun h) 2
    exact K.setFramer hb _ fun r hr => .inl hr
  case te => exact K.endTrain h true
  case ta => exact K.endTrain h false
  case ts => exact K.reopenTrain h

theorem BlockLaw.takeOutside (h : P s) (x : Symbol) : P (s.takeOutside x) := by
  unfold State.takeOutside
  split
  · exact h
  · exact K.openTrain h
  · have hb : P (if s.framer.strayReported then s else s.reportInPath 2) := by
      split
      · exact h
      · exact K.reportInPath h 2
    unfold State.strayOutside
    dsimp only
    generalize (if s.framer.strayReported then s else s.reportInPath 2) = u at hb ⊢
    exact K.setLink (K.setFramer hb { u.framer with strayReported := true } fun r hr => .inl hr) _

theorem BlockLaw.takeUnexpected (h : P s) (x : Symbol) : P (s.takeUnexpected x) := by
  unfold State.takeUnexpected
  split
  · exact K.endTrain h true
  · exact K.endTrain h false
  · exact K.reopenTrain h
  · exact K.setPosition h (by simp)

theorem BlockLaw.headerRead (h : P s) : P s.headerRead := by
  have hz : P { s with alert := { s.alert with noticeRun := 0 } } := K.breakRun h
  unfold State.headerRead
  dsimp only
  split
  · unfold State.claimSlot
    split
    · exact K.same hz rfl rfl (by simp)
    · exact K.raise _ hz nofun
  · exact K.same hz (by simp) (by simp) (by simp)

theorem BlockLaw.takeStatus (h : P s) (due : Nat) (x : Symbol) : P (s.takeStatus due x) := by
  unfold State.takeStatus State.takeStatusByte
  split
  · next b =>
    have hs : P { s with framer := { s.framer with statusBytes := s.framer.statusBytes ++ [b] } } :=
      K.setFramer h _ fun _ hr => .inl hr
    dsimp only
    split
    · exact K.setPosition hs (by simp)
    · exact K.headerRead (K.setPosition hs (by simp))
  · exact K.takeUnexpected h x

theorem BlockLaw.takeHeader (h : P s) (due : Nat) (x : Symbol) : P (s.takeHeader due x) := by
  unfold State.takeHeader
  split
  next b =>
    exact K.setFramer h _ fun r hr => absurd hr (Framer.takeHeaderByte_position due b _ r)
  · exact K.takeUnexpected h x

theorem BlockLaw.takeRecord (h : P s) {r : RecordProgress} (hr : allowed r.length) (x : Symbol) : P (s.takeRecord r x) := by
  unfold State.takeRecord
  split
  · exact K.takeRecordByte h hr _ _
  · exact K.takeRecordByte h hr _ _
  · exact K.takeBody (K.setPosition (K.damagedRecord h) (by simp)) x

theorem BlockLaw.takeSkip (h : P s) (x : Symbol) : P (s.takeSkip x) := by
  unfold State.takeSkip
  split
  · exact K.breakRun h
  · exact K.breakRun h
  · exact K.takeBody (K.setPosition h (by simp)) x

theorem BlockLaw.takeUnread (h : P s) (x : Symbol) : P (s.takeUnread x) := by
  unfold State.takeUnread
  split
  · split
    · exact K.setFramer h _ fun _ hr => .inl hr
    · exact h
  · exact K.takeUnexpected h x

theorem BlockLaw.takeSymbol (h : P s) (x : Symbol) : P (s.takeSymbol x) := by
  unfold State.takeSymbol
  split
  · exact K.takeOutside h x
  · exact K.takeHeader h _ x
  · exact K.takeStatus h _ x
  · exact K.takeBody h x
  next r hr => exact K.takeRecord h (K.record h hr) x
  · exact K.takeSkip h x
  · exact K.takeUnread h x

theorem BlockLaw.hearSymbol (h : P s) (x : LineSymbol) : P (s.hearSymbol x) := by
  have hm : P { (s.moveLine x) with framer := s.framer.hear } := K.same h (by simp) (by simp) (by simp)
  have hlimit (u : State) (hu : P u) : P u.limitIfDue := by
    unfold State.limitIfDue State.limitBreak
    split
    · split
      · exact K.endTrain (K.setPosition (K.damagedRecord hu) (by simp)) false
      · exact K.endTrain hu false
    · exact hu
  have hl : P (s.takeArrival x).limitIfDue := hlimit _ (K.takeSymbol hm x.taken)
  unfold State.hearSymbol State.leaveIfDue
  split
  · exact K.same hl rfl rfl (by simp)
  · exact hl

/-- A drain moves none of the blocks (R34). -/
theorem BlockLaw.finishDrain (h : P s) : P s.finishDrain := K.same h (by simp) (by simp) (by simp)

theorem BlockLaw.drainTick (h : P s) : P s.drainTick := K.same h (by simp) (by simp) (by simp)

theorem BlockLaw.countSilence (h : P s) : P s.countSilence := by
  unfold State.countSilence
  split
  · split
    · exact K.same h rfl rfl (by simp)
    · exact K.declareLoss h
  · exact h

end

/-! ### Every command, every step -/

theorem State.running_iff {s : State} : s.running = true ↔ s.powered = true ∧ s.resetnHigh = true := by
  rw [State.running, Bool.and_eq_true]

/-- A property that a block law keeps while the part has its supply, that the pins and the line do not move, and that every reset and
every loss of the supply leaves true. -/
structure StepLaw (allowed : Nat → Prop) (P : State → Prop) : Prop where
  blocks : BlockLaw allowed fun s => s.powered = true ∧ P s
  frame : ∀ {s t}, P s → s.SameBlocks allowed t → P t
  reset : ∀ s : State, P s.resetBlocks
  powerOn : ∀ {s : State}, P s.resetBlocks → P { s.resetBlocks with powered := true }
  powerLoss : ∀ {s}, P s → P { s with powered := false, alert := { s.alert with alertn := false } }

section

variable {allowed : Nat → Prop} {P : State → Prop} {s : State} (K : StepLaw allowed P)
include K

/-- What moves neither blocks nor Framer position keeps the property. -/
theorem StepLaw.same (h : P s) {t : State} (hf : t.framer = s.framer) (ha : t.alert = s.alert) (ht : t.table = s.table)
    (hs : t.powered = s.powered ∧ t.reaction = s.reaction ∧ t.queue = s.queue ∧ t.op = s.op) : P t := by
  obtain ⟨hp, hr, hq, ho⟩ := hs
  exact K.frame h (by simp only [State.SameBlocks, hf, ha, ht, hp, hr, hq, ho]; simp; exact fun r hr => .inl hr)

theorem StepLaw.quiet (h : P s) : P s.quiet := K.same h rfl rfl rfl ⟨rfl, rfl, rfl, rfl⟩

theorem StepLaw.arrive (h : P s) (x : LineSymbol) : P (s.arrive x) := by
  unfold State.arrive
  split
  next hr => exact (K.blocks.hearSymbol ⟨(State.running_iff.1 hr).1, h⟩ x).2
  · exact K.same h rfl rfl rfl ⟨rfl, rfl, rfl, rfl⟩

theorem StepLaw.arriveAll (h : P s) (xs : List LineSymbol) : P (s.arriveAll xs) := by
  induction xs generalizing s with
  | nil => exact h
  | cons x xs ih => exact ih (K.arrive h x)

theorem StepLaw.fallSilent (h : P s) : P s.fallSilent := by
  unfold State.fallSilent
  split
  next hr =>
    have hp : s.powered = true ∧ P s := ⟨(State.running_iff.1 hr).1, h⟩
    have hd : (if s.link.draining = true then s.finishDrain else s).powered = true ∧
        P (if s.link.draining = true then s.finishDrain else s) := by
      split
      · exact K.blocks.finishDrain hp
      · exact hp
    dsimp only
    generalize (if s.link.draining = true then s.finishDrain else s) = u at hd ⊢
    split
    · exact (K.blocks.declareLoss hd).2
    · exact hd.2
  · exact h

theorem StepLaw.symbolTime (h : P s) : P s.symbolTime := by
  unfold State.symbolTime
  split
  next hr =>
    have hp : s.powered = true ∧ P s := ⟨(State.running_iff.1 hr).1, h⟩
    split
    · exact (K.blocks.countSilence (K.blocks.drainTick hp)).2
    · exact (K.blocks.countSilence hp).2
  · exact h

theorem StepLaw.occur (h : P s) (o : Occasion) : P (s.occur o) := by
  cases o with
  | arrival x => exact K.arrive h x
  | silence => exact K.fallSilent h

theorem StepLaw.comesAbout {t : State} (h : P s) {named : State → State → Bool} {event : State → State}
    (he : ∀ u : State, P u → P (event u)) (hs : s.comesAbout named event = .next t) : P t := by
  unfold State.comesAbout at hs
  dsimp only at hs
  split at hs <;> obtain rfl := Host.Outcome.next.inj hs
  · exact he _ (K.quiet h)
  · exact K.quiet h

theorem StepLaw.exec {c : Instr} {t : State} (h : P s) (hs : exec c s = .next t) : P t := by
  have hq := K.quiet h
  cases hc : requestOf c with
  | some q =>
    rw [exec_request hc] at hs
    obtain rfl := Host.Outcome.next.inj hs
    exact K.arriveAll hq _
  | none =>
    cases c
    case powerOn =>
      obtain rfl := Host.Outcome.next.inj hs
      exact K.same (K.powerOn (K.reset s.quiet)) rfl rfl rfl ⟨rfl, rfl, rfl, rfl⟩
    case resetnAssert =>
      obtain rfl := Host.Outcome.next.inj hs
      have hb : P (if s.powered = true then s.quiet.resetBlocks else s.quiet) := by
        split
        · exact K.reset _
        · exact hq
      exact K.same hb rfl rfl rfl ⟨rfl, rfl, rfl, rfl⟩
    case resetnRelease =>
      simp only [Machine.exec, execResetnRelease] at hs
      split at hs <;> obtain rfl := Host.Outcome.next.inj hs
      · exact hq
      · exact K.same hq rfl rfl rfl ⟨rfl, rfl, rfl, rfl⟩
    case symbolArrival x =>
      obtain rfl := Host.Outcome.next.inj hs
      exact K.arrive hq x
    case lossOfSignal =>
      obtain rfl := Host.Outcome.next.inj hs
      exact K.fallSilent hq
    case drainEnd =>
      obtain rfl := Host.Outcome.next.inj hs
      split
      · exact K.same hq rfl rfl rfl ⟨rfl, rfl, rfl, rfl⟩
      · exact hq
    case dataRecordCompletion =>
      obtain rfl := Host.Outcome.next.inj hs
      exact K.arriveAll hq _
    case powerLoss =>
      obtain rfl := Host.Outcome.next.inj hs
      exact K.same (K.powerLoss hq) rfl rfl rfl ⟨rfl, rfl, rfl, rfl⟩
    case trainLimitBreak | joinWaitEntry | leavingThePath | noticePlacement =>
      simp only [Machine.exec, execTrainLimitBreak, execJoinWaitEntry, execLeavingThePath, execNoticePlacement] at hs
      exact K.comesAbout h (fun u hu => K.arrive hu _) hs
    case heldCountExpiry | periodExpiry | stale | captureTimeout | trialDone =>
      simp only [Machine.exec, execHeldCountExpiry, execPeriodExpiry, execStale, execCaptureTimeout, execTrialDone,
        State.comesAboutAtEnd] at hs
      exact K.comesAbout h (fun u hu => K.occur hu _) hs
    all_goals cases hc

/-- A step law holds after every step. -/
theorem StepLaw.step {t : State} (h : P s) (hs : step s = .next t) : P t := by
  unfold Machine.step at hs
  split at hs
  · obtain rfl := Host.Outcome.next.inj hs
    exact K.symbolTime (K.quiet h)
  next c rest _ =>
    have hp : P { s with pending := rest } := K.same h rfl rfl rfl ⟨rfl, rfl, rfl, rfl⟩
    exact K.exec hp hs

end

/-! ### The capacities -/

/-- The parts of `withinCapacity` by name. -/
structure State.CapacityParts (s : State) : Prop where
  entries : s.table.entries.length = 64
  w0 : s.table.w0 ≤ 7
  w1 : s.table.w1 ≤ 7
  slots : s.reaction.store.length = 16
  contents : ∀ content ∈ s.reaction.store, content.length ≤ 48
  depth : s.queue.items.length ≤ 32
  numbered : ∀ k x, s.queue.items[k]? = some x → x.sequence = s.queue.counter - BitVec.ofNat 8 (s.queue.items.length - k)
  fifo : s.op.fifo.length ≤ 512
  levels : ∀ f, s.alert.levels.get f ≤ 3
  threshold_pos : 1 ≤ s.alert.threshold
  threshold_le : s.alert.threshold ≤ 3
  noticeRun : s.alert.noticeRun ≤ 12
  record : ∀ r, s.framer.position = .record r → r.length ≤ 48

theorem State.withinCapacity_iff (s : State) : s.withinCapacity ↔ s.CapacityParts :=
  ⟨fun ⟨h1, h2, h3, h4, h5, h6, h7, h8, h9, h10, h11, h12, h13⟩ => ⟨h1, h2, h3, h4, h5, h6, h7, h8, h9, h10, h11, h12, h13⟩,
    fun ⟨h1, h2, h3, h4, h5, h6, h7, h8, h9, h10, h11, h12, h13⟩ => ⟨h1, h2, h3, h4, h5, h6, h7, h8, h9, h10, h11, h12, h13⟩⟩

theorem State.CapacityParts.frame {s t : State} (h : s.CapacityParts) (hs : s.SameBlocks (· ≤ 48) t) : t.CapacityParts := by
  obtain ⟨-, hlen, hw0, hw1, hr, hq, hfifo, -, hlev, hthr, -, -, -, hrun, hrec⟩ := hs
  exact
    { entries := hlen ▸ h.entries
      w0 := hw0 ▸ h.w0
      w1 := hw1 ▸ h.w1
      slots := hr ▸ h.slots
      contents := hr ▸ h.contents
      depth := hq ▸ h.depth
      numbered := hq ▸ h.numbered
      fifo := hfifo ▸ h.fifo
      levels := hlev ▸ h.levels
      threshold_pos := hthr ▸ h.threshold_pos
      threshold_le := hthr ▸ h.threshold_le
      noticeRun := hrun.elim (fun hrun => hrun ▸ h.noticeRun) id
      record := fun r hr => (hrec r hr).elim (h.record r) id }

/-- A change of the alert factors alone. -/
theorem State.CapacityParts.setAlert {s : State} (h : s.CapacityParts) (a : AlertUnit)
    (ha : a.levels = s.alert.levels ∧ a.threshold = s.alert.threshold ∧ a.noticeRun = s.alert.noticeRun) :
    State.CapacityParts { s with alert := a } :=
  { h with
    levels := ha.1 ▸ h.levels
    threshold_pos := ha.2.1 ▸ h.threshold_pos
    threshold_le := ha.2.1 ▸ h.threshold_le
    noticeRun := ha.2.2 ▸ h.noticeRun }

/-- An incident that joins takes the counter's number, so the numbers go on by 1 up to it (R139). -/
theorem numbered_push {items : List Incident} {counter : Byte} {new : Incident} (hn : new.sequence = counter)
    (h : ∀ k x, items[k]? = some x → x.sequence = counter - BitVec.ofNat 8 (items.length - k)) :
    ∀ k x, (items ++ [new])[k]? = some x →
      x.sequence = counter + 1#8 - BitVec.ofNat 8 ((items ++ [new]).length - k) := by
  intro k x hk
  rw [List.length_append, List.length_singleton]
  rcases Nat.lt_or_ge k items.length with hlt | hge
  · rw [List.getElem?_append_left hlt] at hk
    rw [h k x hk, show items.length + 1 - k = items.length - k + 1 by omega, BitVec.ofNat_add]
    bv_omega
  · rw [List.getElem?_append_right hge] at hk
    have hk0 : k - items.length = 0 := by
      have := (List.getElem?_eq_some_iff.1 hk).1
      simpa using this
    rw [hk0] at hk
    obtain rfl := Option.some.inj hk
    rw [hn, show items.length + 1 - k = 1 by omega]
    bv_omega

/-- Taking the oldest leaves the numbers of the rest. -/
theorem numbered_drop {items : List Incident} {counter : Byte} (n : Nat)
    (h : ∀ k x, items[k]? = some x → x.sequence = counter - BitVec.ofNat 8 (items.length - k)) :
    ∀ k x, (items.drop n)[k]? = some x → x.sequence = counter - BitVec.ofNat 8 ((items.drop n).length - k) := by
  intro k x hk
  rw [List.getElem?_drop] at hk
  rw [h _ x hk, List.length_drop]
  congr 2
  omega

theorem State.CapacityParts.pushIncident {s : State} (h : s.CapacityParts) (k : IncidentKind) (e : Option Nat) (v : Option Word) :
    (s.pushIncident k e v).CapacityParts := by
  unfold State.pushIncident
  split
  next hlt =>
    exact { h with
      depth := by
        unfold Config.incidentCapacity at hlt
        simp
        omega
      numbered := numbered_push rfl h.numbered }
  · exact h.setAlert _ (by simp)

theorem State.CapacityParts.clearFactors {s : State} (h : s.CapacityParts) (mask : PerFactor Bool) :
    (s.clearFactors mask).CapacityParts :=
  h.setAlert _ (by simp)

/-- The blocks' operations keep the capacities. -/
theorem capacity_blockLaw : BlockLaw (· ≤ 48) fun s => s.powered = true ∧ s.CapacityParts where
  allowed_le := id
  allowed_mono := Nat.le_trans
  record h := h.2.record _
  frame h hs := ⟨hs.1.trans h.1, h.2.frame hs⟩
  raise _ h _ := ⟨h.1, h.2.setAlert _ (by simp)⟩
  clearOpdone h := ⟨h.1, h.2.setAlert _ (by simp)⟩
  pushIncident k e v h := ⟨by simpa using h.1, h.2.pushIncident k e v⟩
  dropIncidents n h := ⟨h.1, { h.2 with
    depth := Nat.le_trans (by simp) h.2.depth
    numbered := numbered_drop n h.2.numbered }⟩
  clearFactors mask h := ⟨h.1, h.2.clearFactors mask⟩
  enterIsolation {s} h := ⟨h.1, State.CapacityParts.setAlert (s := { s with reaction := { s.reaction with isolated := true } })
    { h.2 with } _ (by simp)⟩
  endIsolation {s} h := ⟨h.1, State.CapacityParts.setAlert (s := { s with reaction := { s.reaction with isolated := false } })
    { h.2 with } _ (by simp)⟩
  restartAlerts {s} h _ := ⟨h.1, State.CapacityParts.setAlert (s := { s with queue := { s.queue with items := [] } })
    { h.2 with depth := Nat.zero_le _, numbered := nofun } _ (by simp)⟩
  emptyTable h := ⟨h.1, { h.2 with
    entries := rfl
    w0 := Nat.zero_le _
    w1 := show 1 ≤ 7 by decide
    slots := rfl
    contents := show ∀ c ∈ emptyStore, c.length ≤ 48 by decide }⟩
  windows _ _ h h0 h1 := ⟨h.1, { h.2 with w0 := h0, w1 := h1 }⟩
  fillSlot i c h hc := ⟨h.1, { h.2 with
    slots := by simpa [State.fillSlot] using h.2.slots
    contents := fun content hm => (List.mem_or_eq_of_mem_set hm).elim (h.2.contents content) fun he => he ▸ hc }⟩
  fifo o h ho := ⟨h.1, { h.2 with fifo := ho.elim (fun ho => ho.trans h.2.fifo) id }⟩
  adopt levels _ _ h hl h1 h3 := ⟨h.1, { h.2 with
    levels := fun f => by
      have hall := List.all_eq_true.1 hl f (by cases f <;> decide)
      exact of_decide_eq_true hall
    threshold_pos := h1
    threshold_le := h3 }⟩

/-- The blocks at their reset values are within the capacities. -/
theorem State.resetBlocks_capacityParts (s : State) : s.resetBlocks.CapacityParts where
  entries := rfl
  w0 := Nat.zero_le _
  w1 := by show 1 ≤ 7; decide
  slots := rfl
  contents := by show ∀ c ∈ emptyStore, _; decide
  depth := Nat.zero_le _
  numbered := nofun
  fifo := Nat.zero_le _
  levels f := by show AlertUnit.reset.levels.get f ≤ 3; cases f <;> decide
  threshold_pos := Nat.le_refl _
  threshold_le := by show 1 ≤ 3; decide
  noticeRun := Nat.zero_le _
  record := nofun

theorem capacity_stepLaw : StepLaw (· ≤ 48) State.CapacityParts where
  blocks := capacity_blockLaw
  frame h hs := h.frame hs
  reset := State.resetBlocks_capacityParts
  powerOn h := { h with }
  powerLoss h := { h with }

/-- Settles O56: the blocks' operations keep the capacities, and a step is made of those. -/
theorem everyStepKeepsTheCapacities : Obligations.EveryStepKeepsTheCapacities := by
  unfold Obligations.EveryStepKeepsTheCapacities
  intro s t h hs
  rw [State.withinCapacity_iff] at h ⊢
  exact capacity_stepLaw.step h hs

/-! ### The factors -/

theorem PerFactor.get_isol_set {α : Type} (p : PerFactor α) {f : Factor} (hf : f ≠ .isol) (v : α) : (p.set f v).isol = p.isol := by
  cases f
  case isol => exact absurd rfl hf
  all_goals rfl

/-- The line follows the factors after a raise while the part has its supply (R132). -/
theorem State.factorsAgree_raise {s : State} (hp : s.powered = true) {f : Factor} {isolated : Bool}
    (hi : (s.alert.flags.set f true).isol = isolated ∧ (s.alert.flags.get f = true → s.alert.flags.isol = isolated))
    (h : s.alert.alertn = (s.powered && reaches s.alert.flags s.alert.levels s.alert.threshold) ∧
      (s.alert.noticeWaiting = true → s.alert.noticeEnable = true)) (hr : s.reaction.isolated = isolated) :
    (s.raise f).factorsAgree := by
  obtain ⟨ha, hw⟩ := h
  unfold State.raise AlertUnit.raise
  split
  next hf => exact ⟨(hi.2 hf).trans hr.symm, ha, hw⟩
  · refine ⟨hi.1.trans hr.symm, ?_, ?_⟩
    · simp [AlertUnit.asserts_eq, hp]
    · unfold AlertUnit.rise
      split
      next hn =>
        simp only [Bool.and_eq_true] at hn
        exact fun _ => hn.1
      · exact hw

theorem State.factorsAgree_frame {allowed : Nat → Prop} {s t : State} (h : s.factorsAgree) (hs : s.SameBlocks allowed t) :
    t.factorsAgree := by
  obtain ⟨hi, ha, hw⟩ := h
  obtain ⟨hp, -, -, -, hr, -, -, hf, hl, ht, he, hwait, halert, -, -⟩ := hs
  exact ⟨by rw [hf, hr]; exact hi, by rw [halert, hp, hf, hl, ht]; exact ha, fun hwt => he ▸ hw (hwait hwt)⟩

/-- A settled Alert Unit agrees, if ISOL goes with isolation and only enabled notices wait. -/
theorem State.factorsAgree_settle {s : State} (hp : s.powered = true) {a : AlertUnit} (hi : a.flags.isol = s.reaction.isolated)
    (hw : a.noticeWaiting = true → a.noticeEnable = true) : State.factorsAgree { s with alert := a.settle } :=
  ⟨hi, by simp [AlertUnit.asserts_eq, hp], hw⟩

/-- The blocks' operations keep the factors in agreement while the part has its supply. -/
theorem factors_blockLaw : BlockLaw (fun _ => True) fun s => s.powered = true ∧ s.factorsAgree where
  allowed_le _ := trivial
  allowed_mono _ _ := trivial
  record _ _ := trivial
  frame h hs := ⟨hs.1.trans h.1, State.factorsAgree_frame h.2 hs⟩
  raise f h hf := ⟨h.1, State.factorsAgree_raise h.1 ⟨(PerFactor.get_isol_set _ hf _).trans h.2.1, fun _ => h.2.1⟩ h.2.2 rfl⟩
  clearOpdone {s} h := ⟨h.1, State.factorsAgree_settle (s := s) h.1 h.2.1 h.2.2.2⟩
  pushIncident k e v h := by
    unfold State.pushIncident
    split
    · exact h
    · exact ⟨h.1, State.factorsAgree_raise h.1 ⟨(PerFactor.get_isol_set _ (f := .qfull) nofun _).trans h.2.1, fun _ => h.2.1⟩ h.2.2 rfl⟩
  dropIncidents _ h := h
  clearFactors {s} mask h := by
    refine ⟨h.1, State.factorsAgree_settle (s := s) h.1 ?_ h.2.2.2⟩
    have hi := h.2.1
    simp only [State.flagAfterClear, State.clears, PerFactor.get]
    rw [hi]
    cases s.reaction.isolated <;> simp
  enterIsolation {s} h :=
    ⟨h.1, State.factorsAgree_raise (s := { s with reaction := { s.reaction with isolated := true } }) h.1
      ⟨rfl, fun hf => hf⟩ h.2.2 rfl⟩
  endIsolation {s} h :=
    ⟨h.1, State.factorsAgree_settle (s := { s with reaction := { s.reaction with isolated := false } }) h.1 rfl h.2.2.2⟩
  restartAlerts {s} h hi :=
    ⟨h.1, State.factorsAgree_settle (s := { s with queue := { s.queue with items := [] } }) h.1 hi.symm nofun⟩
  emptyTable h := h
  windows _ _ h _ _ := h
  fillSlot _ _ h _ := h
  fifo _ h _ := h
  adopt {s} _ _ enable h _ _ _ := ⟨h.1, State.factorsAgree_settle (s := s) h.1 h.2.1 fun hw => by simpa using (Bool.and_eq_true .. ▸ hw).2⟩

theorem factors_stepLaw : StepLaw (fun _ => True) State.factorsAgree where
  blocks := factors_blockLaw
  frame h hs := State.factorsAgree_frame h hs
  reset s := ⟨rfl, by cases hp : s.powered <;> simp [State.resetBlocks, State.reset, hp] <;> rfl, fun hw => Bool.noConfusion hw⟩
  powerOn _ := ⟨rfl, rfl, fun hw => Bool.noConfusion hw⟩
  powerLoss h := ⟨h.1, by simp, h.2.2⟩

/-- Settles O57: the blocks' operations keep the agreement, and a step is made of those. -/
theorem everyStepKeepsTheFactorsInAgreement : Obligations.EveryStepKeepsTheFactorsInAgreement := by
  unfold Obligations.EveryStepKeepsTheFactorsInAgreement
  intro s t h hs
  exact factors_stepLaw.step h hs

end Sys2Proof.Machine
end

section
/-! PROOF. Every step keeps the part placed: the Link Controller's own law, the part's seat in the ring (switch, Delay Line, drain), and the
Framer's counts before and after it takes a symbol (R4, R15, R21, R23, R24, R27 to R35, R37 to R39, R142). -/

namespace Sys2Proof.Machine

/-! ### The Link Controller by itself -/

/-- The Link Controller's registers go with its state (R29, R34, R35, R37, R116). -/
structure Link.Sound (l : Link) : Prop where
  exclusive : l.state.inPath = true → l.draining = false
  drainTa : l.drainTa = true → l.draining = true
  clean : l.cleanCount ≤ 1
  cleanIn : l.cleanCount = 1 → l.state = .acquire
  held : l.heldCount ≤ 255
  heldIn : l.heldCount ≠ 0 → l.state = .leaveWait ∨ l.state = .held
  bypass : ∀ h, l.pendingMode = .bypass h → h ≤ 255 ∧ l.mode = .observe
  observes : l.state = .leaveWait ∨ l.state = .held → l.mode = .observe

/-- A held count stands in LEAVE-WAIT and HELD only (R35). -/
theorem Link.Sound.heldCount_zero {l : Link} (h : l.Sound) (hs : l.state ≠ .leaveWait) (hs' : l.state ≠ .held) :
    l.heldCount = 0 := by
  by_contra hne
  exact (h.heldIn hne).elim hs hs'

/-- A clean count stands in ACQUIRE only (R29). -/
theorem Link.Sound.cleanCount_zero {l : Link} (h : l.Sound) (hs : l.state ≠ .acquire) : l.cleanCount = 0 := by
  have := h.clean
  have hne : l.cleanCount ≠ 1 := fun h1 => hs (h.cleanIn h1)
  omega

/-- ACQUIRE with clean count 0, from any state with no held count left. -/
theorem Link.Sound.toAcquire {l : Link} (h : l.Sound) (hh : l.heldCount = 0) : l.toAcquire.Sound :=
  { h with
    exclusive := nofun
    clean := Nat.zero_le _
    cleanIn := fun _ => rfl
    heldIn := fun hne => absurd hh hne
    observes := nofun }

theorem Link.Sound.stray {l : Link} (h : l.Sound) : l.stray.Sound := by
  unfold Link.stray
  split
  · exact { h with clean := Nat.zero_le _, cleanIn := nofun }
  next hs => exact h.toAcquire (h.heldCount_zero (by rw [hs]; nofun) (by rw [hs]; nofun))
  · exact h

theorem Link.Sound.countClean {l : Link} (h : l.Sound) (hs : l.state = .acquire) (clean : Bool) : (l.countClean clean).Sound := by
  unfold Link.countClean
  split
  · split
    · exact { h with
        exclusive := nofun
        clean := Nat.zero_le _
        cleanIn := nofun
        heldIn := fun hne => absurd (h.heldCount_zero (by rw [hs]; nofun) (by rw [hs]; nofun)) hne
        observes := nofun }
    next hc => exact { h with clean := by have := h.clean; show l.cleanCount + 1 ≤ 1; omega, cleanIn := fun _ => hs }
  · exact { h with clean := Nat.zero_le _, cleanIn := nofun }

theorem Link.Sound.countHeld {l : Link} (h : l.Sound) (hs : l.state = .held) : l.countHeld.Sound := by
  unfold Link.countHeld
  split
  · exact h
  split
  · exact { h with
      exclusive := nofun
      clean := Nat.zero_le _
      cleanIn := nofun
      held := Nat.zero_le _
      heldIn := fun hne => absurd rfl hne
      observes := nofun }
  · exact { h with held := (Nat.sub_le ..).trans h.held, heldIn := fun _ => .inr hs }

theorem Link.Sound.applyPending {l : Link} (h : l.Sound) (hp : l.state.inPath = true) (idle : Bool) :
    (l.applyPending idle).Sound := by
  have applied (m : Mode) : (l.applyMode m).Sound := by
    unfold Link.applyMode
    split
    next hs =>
      exact { h with
        exclusive := fun _ => h.exclusive hp
        cleanIn := fun hc => absurd (h.cleanIn hc) (by rw [hs]; nofun)
        held := Nat.zero_le _
        heldIn := fun hne => absurd rfl hne
        bypass := nofun
        observes := nofun }
    next hs =>
      have hinline : l.state = .inline := by
        cases hc : l.state <;> simp only [hc, LinkState.inPath, Bool.false_eq_true] at hp
        · rfl
        · exact absurd hc hs
      exact { h with bypass := nofun, observes := by rw [hinline]; nofun }
  unfold Link.applyPending
  rw [if_pos hp]
  cases hm : l.pendingMode with
  | none => exact h
  | observe => exact applied _
  | active => exact applied _
  | bypass n =>
    obtain ⟨hn, hobs⟩ := h.bypass n hm
    simp only [Link.applyBypass]
    split
    · exact { h with
        exclusive := fun _ => h.exclusive hp
        cleanIn := fun hc => by
          have := h.cleanIn hc
          rw [this] at hp
          cases hp
        held := hn
        heldIn := fun _ => .inl rfl
        bypass := nofun
        observes := fun _ => hobs }
    · exact { h with bypass := nofun }

/-- The loss of the signal, with no drain on (R33). -/
theorem Link.Sound.loseSignal {l : Link} (h : l.Sound) (wasOpen : Bool) :
    (l.loseSignal wasOpen).Sound := by
  unfold Link.loseSignal
  split
  · exact { h with clean := Nat.zero_le _, cleanIn := nofun }
  next hs => exact h.toAcquire (h.heldCount_zero (by rw [hs]; nofun) (by rw [hs]; nofun))
  next hs =>
    exact { h with
      exclusive := nofun
      drainTa := fun _ => rfl
      clean := Nat.zero_le _
      cleanIn := nofun
      heldIn := fun hne => absurd (h.heldCount_zero (by rw [hs]; nofun) (by rw [hs]; nofun)) hne
      observes := nofun }
  next hs =>
    exact { h with
      exclusive := nofun
      drainTa := fun _ => rfl
      cleanIn := fun hc => absurd (h.cleanIn hc) (by rw [hs]; nofun)
      heldIn := fun _ => .inr rfl
      observes := fun _ => h.observes (.inl hs) }
  · exact h

/-! ### The part's seat in the ring -/

/-- The switch, the Delay Line and the drain go with the link state, the loss-of-signal timer with the signal (R23, R24, R27, R28, R34). -/
structure State.Seated (s : State) : Prop where
  link : s.link.Sound
  switch : s.powered = true → s.link.bypassClosed = !(s.inPath || s.link.draining)
  line : s.inPath = true → s.delay.length = 64
  drain : s.link.draining = true → s.delay.length ≤ 64
  lost : s.framer.signal = .lost → s.framer.silence = 128
  present : s.framer.signal = .present → s.framer.silence < 128

theorem State.Seated.frame {s t : State} (h : s.Seated)
    (ht : t.link = s.link ∧ t.powered = s.powered ∧ t.delay.length = s.delay.length ∧ t.framer.signal = s.framer.signal ∧
      t.framer.silence = s.framer.silence) : t.Seated := by
  obtain ⟨hl, hp, hd, hs, hq⟩ := ht
  have hi : t.inPath = s.inPath := by rw [State.inPath, hl, State.inPath]
  exact
    { link := hl ▸ h.link
      switch := by rw [hl, hp, hi]; exact h.switch
      line := by rw [hi, hd]; exact h.line
      drain := by rw [hl, hd]; exact h.drain
      lost := by rw [hs, hq]; exact h.lost
      present := by rw [hs, hq]; exact h.present }

/-- A change of the Link Controller that leaves the path, the switch and the drain. -/
theorem State.Seated.setLink {s : State} (h : s.Seated) {l : Link} (hl : l.Sound)
    (hs : l.state.inPath = s.link.state.inPath ∧ l.bypassClosed = s.link.bypassClosed ∧ l.draining = s.link.draining) :
    State.Seated { s with link := l } := by
  obtain ⟨hi, hb, hd⟩ := hs
  exact { h with
    link := hl
    switch := fun hp => by
      have hsw := h.switch hp
      simp only [State.inPath, hi, hb, hd] at hsw ⊢
      exact hsw
    line := fun hp => h.line (hi.symm.trans hp)
    drain := fun hd' => h.drain (hd ▸ hd') }

/-- A loss of signal opens a drain where the part stood in the path (R33, R34). -/
theorem State.Seated.loseSignal {s : State} (h : s.Seated) (wasOpen : Bool) :
    State.Seated { s with link := s.link.loseSignal wasOpen } := by
  have hl := h.link.loseSignal wasOpen
  cases hs : s.link.state
  case inline | leaveWait =>
    have hi : s.inPath = true := by rw [State.inPath, hs]; rfl
    have hopen := h.switch
    rw [hi] at hopen
    exact { h with
      link := hl
      switch := by
        simp only [Link.loseSignal, hs]
        exact hopen
      line := by
        simp only [State.inPath, Link.loseSignal, hs]
        nofun
      drain := fun _ => Nat.le_of_eq (h.line hi) }
  case acquire | joinWait | held =>
    refine h.setLink hl ?_
    simp [Link.loseSignal, hs, LinkState.inPath, Link.toAcquire]

/-- The end of a drain closes the switch (R34). -/
theorem State.Seated.drainOver {s : State} (h : s.Seated) (hd : s.link.draining = true) : s.drainOver.Seated := by
  have hi : s.inPath = false := by
    by_contra hp
    rw [h.link.exclusive (by simpa [State.inPath] using hp)] at hd
    cases hd
  have hi' : s.drainOver.inPath = false := hi
  exact { h with
    link := { h.link with exclusive := fun _ => rfl, drainTa := nofun }
    switch := fun _ => by rw [hi']; rfl
    line := fun hp => by rw [hi'] at hp; cases hp
    drain := nofun }

/-! ### The Framer's counts -/

/-- The counts go with the parse position below a limit. `late` is 1 while a symbol has been counted and not yet taken. -/
def Framer.counts (late limit : Nat) (f : Framer) : Prop :=
  match f.position with
  | .outside => f.symbolCount = 0
  | .header due =>
    1 ≤ due ∧ due ≤ 3 ∧ f.symbolCount = due + late ∧ f.statusBytes = [] ∧ (1 < due → 1 ≤ f.slotCount ∧ f.slotCount ≤ 31)
  | .status due =>
    1 ≤ due ∧ due ≤ f.slotCount ∧ f.slotCount ≤ 31 ∧ f.statusBytes.length + 1 = due ∧ f.symbolCount = due + 3 + late
  | .body => 5 ≤ f.symbolCount ∧ f.symbolCount < limit
  | .record r =>
    5 ≤ f.symbolCount ∧ f.symbolCount < limit ∧
      (r.bytes ≠ [] → (r.bytes.getD 0 0#8).toNat ≤ 48 ∧ r.bytes.length ≤ (r.bytes.getD 0 0#8).toNat + 5)
  | .skip => 5 ≤ f.symbolCount ∧ f.symbolCount < limit ∧ f.trainFaulted = true
  | .unread => 1 ≤ f.symbolCount ∧ f.symbolCount < limit

theorem Framer.sound_iff (f : Framer) :
    f.sound ↔ f.counts 0 2048 ∧ (f.signal = .lost → f.position = .outside ∧ f.silence = 128) ∧
      (f.signal = .present → f.silence < 128) := by
  unfold Framer.sound Framer.counts
  cases f.position <;> rfl

/-- An arrival counts one symbol of an open train (R15). -/
theorem Framer.counts_hear {f : Framer} (h : f.counts 0 2048) : f.hear.counts 1 2049 := by
  have hopen := Framer.trainOpen_iff f
  unfold Framer.counts at h ⊢
  simp only [Framer.hear]
  cases hp : f.position <;> simp only [hp, ne_eq, not_true_eq_false, iff_false, reduceCtorEq, not_false_eq_true, iff_true] at h hopen ⊢
  case outside => simp [hopen, h]
  all_goals simp only [hopen, if_true]
  case header => exact ⟨h.1, h.2.1, by omega, h.2.2.2.1, h.2.2.2.2⟩
  case status => exact ⟨h.1, h.2.1, h.2.2.1, h.2.2.2.1, by omega⟩
  case record => exact ⟨by omega, by omega, h.2.2⟩
  case skip => exact ⟨by omega, by omega, h.2.2⟩
  all_goals omega

/-! ### The placed part -/

/-- The parts of `placed` by name, at a moment before (late 1) or after (late 0) the Framer takes a counted symbol. -/
structure State.PlacedParts (late limit : Nat) (s : State) : Prop where
  seated : s.Seated
  counts : s.framer.counts late limit
  gone : s.framer.signal = .lost → s.framer.position = .outside
  pendingIn : s.link.pendingMode ≠ .none → s.inPath = true ∧ s.framer.position ≠ .outside
  positionIn : ∀ k, s.position = some k → 1 ≤ k ∧ k ≤ 31 ∧ s.inPath = true ∧ s.framer.position ≠ .outside
  runIn : s.alert.noticeRun ≠ 0 → s.inPath = true ∧ s.framer.position = .body

theorem State.placed_iff (s : State) : s.placed ↔ s.PlacedParts 0 2048 := by
  constructor
  · rintro ⟨hf, hsw, hline, hdrain, hta, hc, hc1, hh, hh1, hpm, hby, hpos, hobs, hrun⟩
    obtain ⟨hcounts, hlost, hpres⟩ := (Framer.sound_iff _).1 hf
    exact ⟨⟨⟨fun hp => (hline hp).1, hta, hc, hc1, hh, hh1, hby, hobs⟩, hsw, fun hp => (hline hp).2, hdrain,
      fun hl => (hlost hl).2, hpres⟩, hcounts, fun hl => (hlost hl).1, hpm, hpos, hrun⟩
  · rintro ⟨⟨⟨hex, hta, hc, hc1, hh, hh1, hby, hobs⟩, hsw, hline, hdrain, hlost, hpres⟩, hcounts, hgone, hpm, hpos, hrun⟩
    exact ⟨(Framer.sound_iff _).2 ⟨hcounts, fun hl => ⟨hgone hl, hlost hl⟩, hpres⟩, hsw, fun hp => ⟨hex hp, hline hp⟩, hdrain, hta,
      hc, hc1, hh, hh1, hpm, hby, hpos, hobs, hrun⟩

section

variable {late limit : Nat} {s t : State}

/-- Between trains the pending mode is none. -/
theorem State.PlacedParts.pending_none (h : s.PlacedParts late limit) (hs : s.inPath = false ∨ s.framer.position = .outside) :
    s.link.pendingMode = .none := by
  by_contra hne
  obtain ⟨hp, ho⟩ := h.pendingIn hne
  rcases hs with hs | hs
  · rw [hs] at hp; cases hp
  · exact ho hs

/-- Away from the body the notice run is 0. -/
theorem State.PlacedParts.run_zero (h : s.PlacedParts late limit) (hs : s.framer.position ≠ .body) : s.alert.noticeRun = 0 := by
  by_contra hne
  exact hs (h.runIn hne).2

/-- Between trains the part is unplaced. -/
theorem State.PlacedParts.position_none (h : s.PlacedParts late limit) (hs : s.framer.position = .outside) : s.position = none := by
  cases hk : s.position with
  | none => rfl
  | some k => exact absurd hs (h.positionIn k hk).2.2.2

/-- What moves nothing of the part's place keeps it. -/
theorem State.PlacedParts.same (h : s.PlacedParts late limit)
    (ht : t.link = s.link ∧ t.powered = s.powered ∧ t.delay.length = s.delay.length ∧ t.framer = s.framer ∧
      t.position = s.position ∧ t.alert.noticeRun = s.alert.noticeRun) : t.PlacedParts late limit := by
  obtain ⟨hl, hp, hd, hf, hk, hn⟩ := ht
  have hi : t.inPath = s.inPath := by rw [State.inPath, hl, State.inPath]
  exact
    { seated := h.seated.frame ⟨hl, hp, hd, by rw [hf], by rw [hf]⟩
      counts := hf ▸ h.counts
      gone := by rw [hf]; exact h.gone
      pendingIn := by rw [hl, hi, hf]; exact h.pendingIn
      positionIn := by rw [hk, hi, hf]; exact h.positionIn
      runIn := by rw [hn, hi, hf]; exact h.runIn }

/-- The Framer moves within an open train, with the notice run at 0. -/
theorem State.PlacedParts.reposition {late' limit' : Nat} (h : s.PlacedParts late limit) (hs : s.framer.position ≠ .outside)
    (ht : t.link = s.link ∧ t.powered = s.powered ∧ t.delay.length = s.delay.length ∧ t.framer.signal = s.framer.signal ∧
      t.framer.silence = s.framer.silence ∧ t.position = s.position)
    (hn : t.alert.noticeRun = 0) (ho : t.framer.position ≠ .outside) (hc : t.framer.counts late' limit') :
    t.PlacedParts late' limit' := by
  obtain ⟨hl, hp, hd, hsig, hsil, hk⟩ := ht
  have hi : t.inPath = s.inPath := by rw [State.inPath, hl, State.inPath]
  exact
    { seated := h.seated.frame ⟨hl, hp, hd, hsig, hsil⟩
      counts := hc
      gone := fun hg => absurd (h.gone (hsig ▸ hg)) hs
      pendingIn := fun hm => ⟨hi.trans (h.pendingIn (hl ▸ hm)).1, ho⟩
      positionIn := fun k hk' => by
        obtain ⟨h1, h31, hpath, -⟩ := h.positionIn k (hk ▸ hk')
        exact ⟨h1, h31, hi.trans hpath, ho⟩
      runIn := fun hne => absurd hn hne }

/-- A part between trains, unplaced and with no mode pending, is placed if it is seated. -/
theorem State.Seated.placed_outside (h : s.Seated) (ho : s.framer.position = .outside) (hc : s.framer.symbolCount = 0)
    (hk : s.position = none) (hn : s.alert.noticeRun = 0) (hm : s.link.pendingMode = .none) : s.PlacedParts late limit where
  seated := h
  counts := by unfold Framer.counts; rw [ho]; exact hc
  gone _ := ho
  pendingIn hne := absurd hm hne
  positionIn k hk' := by rw [hk] at hk'; cases hk'
  runIn hne := absurd hn hne

/-! ### Train starts and ends -/

/-- The train end's part of the Link Controller (R29 to R31, R35, R38). -/
theorem State.Seated.linkTrainEnd (h : s.Seated) (byTe clean : Bool) : (s.linkTrainEnd s.link.state byTe clean).Seated := by
  unfold State.linkTrainEnd
  cases hs : s.link.state
  case acquire =>
    refine h.setLink (h.link.countClean hs clean) ⟨?_, by simp, by simp⟩
    rw [hs]
    unfold Link.countClean
    repeat' split
    all_goals simp [LinkState.inPath, hs]
  case joinWait =>
    have hheld := h.link.heldCount_zero (by rw [hs]; nofun) (by rw [hs]; nofun)
    have hacq : State.Seated { s with link := s.link.toAcquire } :=
      h.setLink (h.link.toAcquire hheld) ⟨by rw [hs]; rfl, rfl, rfl⟩
    simp only [State.joinWaitEnd]
    split
    · split
      · exact h
      next hd =>
        rw [Bool.not_eq_true] at hd
        have hclean := h.link.cleanCount_zero (by rw [hs]; nofun)
        exact { h with
          link := { h.link with
            exclusive := fun _ => hd
            cleanIn := fun hc => by rw [State.join] at hc; simp [hclean] at hc
            heldIn := fun hne => absurd hheld hne
            observes := nofun }
          switch := fun _ => by simp [State.join, State.inPath, LinkState.inPath]
          line := fun _ => rfl
          drain := fun hd' => by rw [State.join_frame s |>.2.2.2.2.2.2.2.2.2.2.2.2.2.2.2.2.2.1, hd] at hd'; cases hd' }
    · exact hacq
  case held =>
    refine h.setLink (h.link.countHeld hs) ⟨?_, by simp, by simp⟩
    rw [hs]
    unfold Link.countHeld
    repeat' split
    all_goals simp [LinkState.inPath, hs]
  case inline | leaveWait =>
    exact h.setLink (h.link.applyPending (by rw [hs]; rfl) _) (by simp)

/-- The train end leaves no mode pending. -/
theorem State.linkTrainEnd_pending (hm : s.inPath = false → s.link.pendingMode = .none) (byTe clean : Bool) :
    (s.linkTrainEnd s.link.state byTe clean).link.pendingMode = .none := by
  unfold State.linkTrainEnd
  cases hs : s.link.state
  case inline | leaveWait => simp [State.applyPendingMode]
  all_goals
    have hnone := hm (by rw [State.inPath, hs]; rfl)
    simpa using hnone

theorem State.Seated.trainEnd (h : s.Seated) (hm : s.inPath = false → s.link.pendingMode = .none) (byTe : Bool) :
    (s.trainEnd byTe).PlacedParts late limit := by
  have hu : ∀ u : State, u = (if s.inPath = true then s.trainEndInPath else s) →
      u.Seated ∧ u.link = s.link ∧ (u.inPath = false → u.link.pendingMode = .none) := by
    rintro u rfl
    split
    · exact ⟨h.frame (by simp), by simp, fun hi => by simpa using hm (by simpa [State.inPath] using hi)⟩
    · exact ⟨h, rfl, hm⟩
  unfold State.trainEnd
  dsimp only
  generalize (byTe && s.framer.readable && !s.framer.trainFaulted) = clean
  generalize hg : (if s.inPath = true then s.trainEndInPath else s) = u
  obtain ⟨hseat, hlink, hpend⟩ := hu u hg.symm
  rw [← hlink]
  refine State.Seated.placed_outside ((hseat.linkTrainEnd byTe clean).frame ⟨rfl, rfl, rfl, rfl, rfl⟩) rfl rfl rfl rfl ?_
  exact State.linkTrainEnd_pending hpend _ _

theorem State.PlacedParts.reportInPath (h : s.PlacedParts late limit) (cause : Nat) : (s.reportInPath cause).PlacedParts late limit :=
  h.same (by simp)

theorem State.PlacedParts.trainEnd {late' limit' : Nat} (h : s.PlacedParts late limit) (byTe : Bool) :
    (s.trainEnd byTe).PlacedParts late' limit' :=
  h.seated.trainEnd (fun hi => h.pending_none (.inl hi)) byTe

theorem State.PlacedParts.endTrain {late' limit' : Nat} (h : s.PlacedParts late limit) (byTe : Bool) :
    (s.endTrain byTe).PlacedParts late' limit' := by
  refine State.PlacedParts.trainEnd (late := late) (limit := limit) ?_ byTe
  repeat' split
  · exact h
  · exact h.reportInPath _
  · exact h.reportInPath _

theorem State.endTrain_outside (byTe : Bool) (s : State) : (s.endTrain byTe).framer.position = .outside := rfl

/-- A TS between trains opens one (R13). -/
theorem State.PlacedParts.openTrain {limit' : Nat} (h : s.PlacedParts late limit) (ho : s.framer.position = .outside)
    (hp : s.framer.signal = .present) : s.openTrain.PlacedParts 0 limit' := by
  have hf : s.openTrain.framer = s.framer.opened := by simp [State.openTrain]
  have hk : s.openTrain.position = none := by simp [State.openTrain, State.clearTrainMarks]
  have hn : s.openTrain.alert.noticeRun = 0 := by simp [State.openTrain, State.clearTrainMarks]
  have hm : s.openTrain.link.pendingMode = .none := by simpa using h.pending_none (.inr ho)
  exact
    { seated := h.seated.frame (by simp)
      counts := by
        rw [hf]
        exact ⟨Nat.le_refl _, by decide, rfl, rfl, fun h1 => absurd h1 (by decide)⟩
      gone := fun hg => by
        have hsig : s.openTrain.framer.signal = s.framer.signal := by simp
        rw [hsig, hp] at hg
        cases hg
      pendingIn := fun hne => absurd hm hne
      positionIn := fun k hk' => by rw [hk] at hk'; cases hk'
      runIn := fun hne => absurd hn hne }

theorem State.PlacedParts.reopenTrain {limit' : Nat} (h : s.PlacedParts late limit) (hp : s.framer.signal = .present) :
    s.reopenTrain.PlacedParts 0 limit' :=
  State.PlacedParts.openTrain (late := 0) (limit := 0) (h.endTrain false) (State.endTrain_outside _ _) (by simpa using hp)

/-! ### The rewrites of a record -/

/-- Writing over the newest places keeps the line's length, if there are so many. -/
theorem overwriteNewest_length {xs delay : List Symbol} (h : xs.length ≤ delay.length) :
    (overwriteNewest xs delay).length = delay.length := by
  simp [overwriteNewest]
  omega

/-- No reaction makes a record longer. -/
theorem State.carryOut_delay_length (f : Fate) {d : DataRecord} (h : d.payload.length + 7 ≤ s.delay.length) :
    (s.carryOut f d).delay.length = s.delay.length := by
  unfold State.carryOut
  split
  · rfl
  · exact overwriteNewest_length (by simpa using h)
  · exact overwriteNewest_length (by simpa [DataRecord.wire, DataRecord.marked] using h)
  · refine overwriteNewest_length ?_
    unfold State.substituteFor
    split
    next slot hs =>
      have hlen : (s.slotContent slot).length = d.payload.length := by
        rw [slotServes, Bool.and_eq_true, beq_iff_eq] at hs
        exact hs.2
      simpa [DataRecord.wire, DataRecord.substituted, hlen] using h
    · simpa [DataRecord.wire, DataRecord.marked] using h

theorem State.PlacedParts.completeData (h : s.PlacedParts late limit) {d : DataRecord} (hd : d.payload.length ≤ 48) :
    (s.completeData d).PlacedParts late limit := by
  have hlen : (s.completeData d).delay.length = s.delay.length := by
    unfold State.completeData
    dsimp only
    split
    next hi =>
      split
      · simp
      · have h64 := h.seated.line hi
        rw [State.react, State.carryOut_delay_length] <;> simp
        omega
    · rfl
  exact h.same (by simp [hlen])

theorem padTo_length_le (len : Nat) (data : List Byte) : (padTo len data).length ≤ len := List.length_take_le ..

/-- Only a SET MODE moves the Link Controller, and then its pending mode (R37): BYPASS with a byte as held count, and in OBSERVE. -/
theorem RequestKind.respond_pending (k : RequestKind) (ops : List Byte) (s : State) :
    (k.respond ops s).state.link = s.link ∨
      ∃ m, (k.respond ops s).state.link = { s.link with pendingMode := m } ∧
        ∀ n, m = .bypass n → n ≤ 255 ∧ s.link.mode = .observe := by
  unfold RequestKind.respond
  split
  · exact .inl rfl
  cases k
  case setMode =>
    simp only [RequestKind.carryOut, reqSetMode]
    split
    · exact .inr ⟨.observe, rfl, nofun⟩
    · exact .inr ⟨.active, rfl, nofun⟩
    · split
      · exact .inl rfl
      next hm =>
        split
        · exact .inl rfl
        split
        · exact .inl rfl
        · refine .inr ⟨.bypass (operandNat ops 1), rfl, fun n hn => ?_⟩
          obtain rfl := PendingMode.bypass.inj hn
          refine ⟨Nat.le_of_lt_succ (BitVec.isLt _), ?_⟩
          cases hmode : s.link.mode
          · rfl
          · exact absurd (by simp [hmode]) hm
    · exact .inl rfl
  case clearAlerts =>
    simp only [RequestKind.carryOut, reqClearAlerts]
    repeat' split
    all_goals exact .inl (by simp [refuse, clearResponse])
  case readEntry | loadEntry | arm | disarm | free | startTrial =>
    simp only [RequestKind.carryOut, reqReadEntry, reqLoadEntry, reqArm, reqDisarm, reqFree, reqStartTrial, withEntry]
    repeat' split
    all_goals exact .inl (by simp [refuse, refuseEntry, acceptEntry])
  case setAlerts | setWindows | loadSlot | readSlot | startCapture =>
    simp only [RequestKind.carryOut, reqSetAlerts, reqSetWindows, reqLoadSlot, reqReadSlot, reqStartCapture]
    repeat' split
    all_goals exact .inl rfl
  case release =>
    simp only [RequestKind.carryOut, reqRelease]
    split
    all_goals exact .inl (by simp)
  case restart =>
    simp only [RequestKind.carryOut, reqRestart]
    split
    all_goals exact .inl (by simp [refuse])
  case abort =>
    simp only [RequestKind.carryOut, reqAbort]
    split
    all_goals exact .inl (by simp [refuse, acceptAbort])
  all_goals exact .inl rfl

/-- A mode stored in the body of a train in the path. -/
theorem State.PlacedParts.storeMode (h : s.PlacedParts late limit) (hi : s.inPath = true) (ho : s.framer.position ≠ .outside)
    {m : PendingMode} (hm : ∀ n, m = .bypass n → n ≤ 255 ∧ s.link.mode = .observe) :
    State.PlacedParts late limit { s with link := { s.link with pendingMode := m } } :=
  { h with
    seated := h.seated.setLink { h.seated.link with bypass := hm } ⟨rfl, rfl, rfl⟩
    pendingIn := fun _ => ⟨hi, ho⟩ }

theorem State.PlacedParts.respondKind (h : s.PlacedParts late limit) (hi : s.inPath = true) (ho : s.framer.position ≠ .outside)
    (k : RequestKind) (ops : List Byte) : (k.respond ops s).state.PlacedParts late limit := by
  rcases k.respond_pending ops s with hl | ⟨m, hl, hm⟩
  · exact h.same (by simp [hl])
  · exact (h.storeMode hi ho hm).same (by simp [hl])

theorem State.PlacedParts.completeRequest (h : s.PlacedParts late limit) (ho : s.framer.position ≠ .outside) {q : Request}
    (hq : q.operands.length ≤ 48) : (s.completeRequest q).PlacedParts late limit := by
  unfold State.completeRequest
  split
  next hi =>
    have h64 := h.seated.line hi
    have answered (p : Nat) : (s.answer p q).PlacedParts late limit := by
      have hr : (respond q.code q.operands s).state.PlacedParts late limit := by
        unfold respond
        split
        · exact h
        · exact h.respondKind hi ho _ _
      refine hr.same ?_
      have hlen : (s.answer p q).delay.length = (respond q.code q.operands s).state.delay.length := by
        have hpad := padTo_length_le q.operands.length (respond q.code q.operands s).data
        refine overwriteNewest_length ?_
        simp [replyRecord]
        omega
      exact ⟨rfl, rfl, hlen, rfl, rfl, rfl⟩
    split
    · unfold State.takeBroadcast
      split
      · split
        · exact h.respondKind hi ho _ _
        · exact h
      · exact h
    split
    · split
      · exact answered _
      · exact h
    · exact h
  · exact h

theorem State.PlacedParts.deliver (h : s.PlacedParts late limit) (ho : s.framer.position ≠ .outside) {r : RecordProgress}
    (hr : r.length ≤ 48) : (s.deliver r).PlacedParts late limit := by
  have hp : r.payload.length ≤ 48 := r.payload_length_le.trans hr
  unfold State.deliver
  split
  · exact h.completeData hp
  · exact h.completeRequest ho hp
  · exact h
  · exact h

/-! ### One symbol by the parse position -/

theorem State.PlacedParts.strayOutside (h : s.PlacedParts late limit) : s.strayOutside.PlacedParts late limit := by
  have hr : (if s.framer.strayReported then s else s.reportInPath 2).PlacedParts late limit := by
    split
    · exact h
    · exact h.reportInPath 2
  unfold State.strayOutside
  dsimp only
  generalize (if s.framer.strayReported then s else s.reportInPath 2) = u at hr ⊢
  exact { hr with
    seated := State.Seated.frame (hr.seated.setLink hr.seated.link.stray (by simp)) ⟨rfl, rfl, rfl, rfl, rfl⟩
    pendingIn := by simpa [State.inPath] using hr.pendingIn
    positionIn := by simpa [State.inPath] using hr.positionIn
    runIn := by simpa [State.inPath] using hr.runIn }

theorem State.PlacedParts.takeOutside (h : s.PlacedParts 1 2049) (ho : s.framer.position = .outside)
    (hp : s.framer.signal = .present) (x : Symbol) : (s.takeOutside x).PlacedParts 0 2049 := by
  have h0 : s.PlacedParts 0 2049 := { h with
    counts := by
      have hc := h.counts
      unfold Framer.counts at hc ⊢
      rw [ho] at hc ⊢
      exact hc }
  unfold State.takeOutside
  split
  · exact h0
  · exact h.openTrain ho hp
  · exact h0.strayOutside

/-- A symbol has been counted in an open train. -/
theorem Framer.counts_pos {f : Framer} (h : f.counts 1 2049) (ho : f.position ≠ .outside) : 1 ≤ f.symbolCount ∧ f.symbolCount < 2049 := by
  unfold Framer.counts at h
  cases hp : f.position <;> simp only [hp] at h ho
  case outside => exact absurd rfl ho
  all_goals omega

theorem State.PlacedParts.takeUnexpected (h : s.PlacedParts 1 2049) (ho : s.framer.position ≠ .outside)
    (hb : s.framer.position ≠ .body) (hp : s.framer.signal = .present) (x : Symbol) :
    (s.takeUnexpected x).PlacedParts 0 2049 := by
  unfold State.takeUnexpected
  split
  · exact h.endTrain true
  · exact h.endTrain false
  · exact h.reopenTrain hp
  · have hc : 1 ≤ s.framer.symbolCount ∧ s.framer.symbolCount < 2049 := Framer.counts_pos h.counts ho
    exact h.reposition ho (by simp) (h.run_zero hb) nofun hc

theorem State.PlacedParts.takeHeader (h : s.PlacedParts 1 2049) {due : Nat} (hd : s.framer.position = .header due)
    (hp : s.framer.signal = .present) (x : Symbol) : (s.takeHeader due x).PlacedParts 0 2049 := by
  have ho : s.framer.position ≠ .outside := by rw [hd]; nofun
  have hb : s.framer.position ≠ .body := by rw [hd]; nofun
  unfold State.takeHeader
  split
  next b =>
    have hc := h.counts
    unfold Framer.counts at hc
    rw [hd] at hc
    obtain ⟨h1, h3, hcount, hempty, hslots⟩ := hc
    have hnew : (s.framer.takeHeaderByte due b).counts 0 2049 ∧ (s.framer.takeHeaderByte due b).position ≠ .outside := by
      unfold Framer.takeHeaderByte
      split
      · split
        next hn => exact ⟨⟨by decide, by decide, by show s.framer.symbolCount = 2; omega, hempty, fun _ => hn⟩, nofun⟩
        · exact ⟨⟨by show 1 ≤ s.framer.symbolCount; omega, by show s.framer.symbolCount < 2049; omega⟩, nofun⟩
      split
      · exact ⟨⟨by decide, by decide, by show s.framer.symbolCount = 3; omega, hempty, fun _ => hslots (by omega)⟩, nofun⟩
      · obtain ⟨hs1, hs31⟩ := hslots (by omega)
        exact ⟨⟨Nat.le_refl _, hs1, hs31, by show s.framer.statusBytes.length + 1 = 1; rw [hempty]; rfl,
          by show s.framer.symbolCount = 4; omega⟩, nofun⟩
    exact h.reposition ho ⟨rfl, rfl, rfl, by simp, by simp, rfl⟩ (h.run_zero hb) hnew.2 hnew.1
  · exact h.takeUnexpected ho hb hp x

/-- The slot claimed is one of those received. -/
theorem firstEmptySlot_lt {bytes : List Byte} {k : Nat} (h : firstEmptySlot bytes = some k) : k < bytes.length :=
  (List.findIdx?_eq_some_iff_getElem.1 h).1

/-- The header read event (R35, R39, R40): a position of the train's slots, or the JOIN flag's call. -/
theorem State.PlacedParts.headerRead (h : s.PlacedParts late limit) (hb : s.framer.position = .body)
    (hlen : s.framer.statusBytes.length ≤ 31) : s.headerRead.PlacedParts late limit := by
  have ho : s.framer.position ≠ .outside := by rw [hb]; nofun
  have hz : State.PlacedParts late limit { s with alert := { s.alert with noticeRun := 0 } } :=
    { h with seated := h.seated.frame ⟨rfl, rfl, rfl, rfl, rfl⟩, runIn := fun hne => absurd rfl hne }
  unfold State.headerRead
  dsimp only
  split
  next hi =>
    unfold State.claimSlot
    split
    next k hk =>
      have hlt := firstEmptySlot_lt hk
      have hset : State.PlacedParts late limit { s with
          delay := s.delay.set (s.framer.slotCount - (k + 1)) (.data (State.statusByte { s with alert := { s.alert with noticeRun := 0 } }))
          alert := { s.alert with noticeRun := 0 } } := hz.same ⟨rfl, rfl, by simp, rfl, rfl, rfl⟩
      exact { hset with
        seated := hset.seated.frame ⟨rfl, rfl, rfl, rfl, rfl⟩
        positionIn := fun j hj => by
          obtain rfl := Option.some.inj hj
          refine ⟨Nat.succ_pos _, ?_, hi, ho⟩
          have : k < s.framer.statusBytes.length := hlt
          omega }
    · exact hz.same (by simp)
  next hi =>
    have hi : s.inPath = false := Bool.not_eq_true _ ▸ hi
    unfold State.takeJoinFlag
    split
    · have hacq : ({ s.link.toAcquire with heldCount := 0 } : Link).Sound :=
        { h.seated.link with
          exclusive := nofun
          clean := Nat.zero_le _
          cleanIn := nofun
          held := Nat.zero_le _
          heldIn := fun hne => absurd rfl hne
          observes := nofun }
      have hm := h.pending_none (.inl hi)
      exact
        { seated := State.Seated.frame (h.seated.setLink hacq ⟨hi.symm, rfl, rfl⟩) ⟨rfl, rfl, rfl, rfl, rfl⟩
          counts := h.counts
          gone := h.gone
          pendingIn := fun hne => absurd hm hne
          positionIn := fun k hk => by
            have := (h.positionIn k hk).2.2.1
            rw [hi] at this
            cases this
          runIn := fun hne => absurd rfl hne }
    · exact hz

theorem State.PlacedParts.takeStatus (h : s.PlacedParts 1 2049) {due : Nat} (hd : s.framer.position = .status due)
    (hp : s.framer.signal = .present) (x : Symbol) : (s.takeStatus due x).PlacedParts 0 2049 := by
  have ho : s.framer.position ≠ .outside := by rw [hd]; nofun
  have hb : s.framer.position ≠ .body := by rw [hd]; nofun
  unfold State.takeStatus State.takeStatusByte
  split
  next b =>
    have hc := h.counts
    unfold Framer.counts at hc
    rw [hd] at hc
    obtain ⟨h1, hdue, h31, hbytes, hcount⟩ := hc
    dsimp only
    split
    next hlt =>
      refine h.reposition ho (by simp) (h.run_zero hb) nofun ?_
      exact ⟨by omega, hlt, h31, by simp [State.setPosition]; omega, by simp [State.setPosition]; omega⟩
    · have hbody : State.PlacedParts 0 2049 (State.setPosition .body
          { s with framer := { s.framer with statusBytes := s.framer.statusBytes ++ [b] } }) := by
        refine h.reposition ho (by simp) (h.run_zero hb) nofun ?_
        exact ⟨by simp [State.setPosition]; omega, by simp [State.setPosition]; omega⟩
      refine hbody.headerRead rfl ?_
      simp [State.setPosition]
      omega
  · exact h.takeUnexpected ho hb hp x

theorem State.PlacedParts.breakRun (h : s.PlacedParts late limit) : s.breakRun.PlacedParts late limit :=
  { h with seated := h.seated.frame ⟨rfl, rfl, rfl, rfl, rfl⟩, runIn := fun hne => absurd rfl hne }

/-- Between records the Framer opens one, or finds a stray symbol; FILL lengthens the notice run. -/
theorem State.PlacedParts.takeBody (h : s.PlacedParts late limit) (hb : s.framer.position = .body)
    (hp : s.framer.signal = .present) (x : Symbol) : (s.takeBody x).PlacedParts 0 limit := by
  have ho : s.framer.position ≠ .outside := by rw [hb]; nofun
  have hc := h.counts
  unfold Framer.counts at hc
  rw [hb] at hc
  have h0 : s.PlacedParts 0 limit := { h with counts := by unfold Framer.counts; rw [hb]; exact hc }
  cases x
  case fill =>
    have hext : s.extendRun.PlacedParts 0 limit := by
      unfold State.extendRun
      split
      next hi => exact { h0 with seated := h0.seated.frame ⟨rfl, rfl, rfl, rfl, rfl⟩, runIn := fun _ => ⟨hi, hb⟩ }
      · exact h0
    show s.extendRun.placeNotice.PlacedParts 0 limit
    generalize s.extendRun = u at hext
    unfold State.placeNotice
    split
    next hn =>
      simp only [Bool.and_eq_true] at hn
      have h64 := hext.seated.line hn.1.1
      have hw : (u.rewriteRecord u.noticeRecord).PlacedParts 0 limit :=
        hext.same ⟨rfl, rfl, overwriteNewest_length (by rw [h64]; simp [State.noticeRecord]), rfl, rfl, rfl⟩
      exact { hw with seated := hw.seated.frame ⟨rfl, rfl, rfl, rfl, rfl⟩, runIn := fun hne => absurd rfl hne }
    · exact hext
  case md | mq | ma | mn =>
    refine h.reposition (t := s.openRecord _) ho (by simp) rfl nofun ?_
    exact ⟨hc.1, hc.2, fun hne => absurd rfl hne⟩
  case data | err =>
    refine h.reposition (t := s.strayInBody) ho (by simp) ?_ (by simpa using ho) ?_
    · unfold State.strayInBody
      dsimp only
      split
      · rfl
      · simp [State.breakRun]
    · unfold Framer.counts
      simpa [hb] using hc
  case te => exact h.endTrain true
  case ta => exact h.endTrain false
  case ts => exact h.reopenTrain hp

theorem State.PlacedParts.takeSkip (h : s.PlacedParts 1 2049) (hk : s.framer.position = .skip)
    (hp : s.framer.signal = .present) (x : Symbol) : (s.takeSkip x).PlacedParts 0 2049 := by
  have ho : s.framer.position ≠ .outside := by rw [hk]; nofun
  have hc := h.counts
  unfold Framer.counts at hc
  rw [hk] at hc
  have hpass : s.breakRun.PlacedParts 0 2049 := { h.breakRun with
    counts := by unfold Framer.counts; rw [show s.breakRun.framer.position = .skip from hk]; exact hc }
  have hbody : (s.setPosition .body).PlacedParts 1 2049 :=
    h.reposition ho (by simp) (h.run_zero (by rw [hk]; nofun)) nofun ⟨hc.1, hc.2.1⟩
  unfold State.takeSkip
  split
  · exact hpass
  · exact hpass
  · exact hbody.takeBody rfl hp x

theorem State.PlacedParts.takeUnread (h : s.PlacedParts 1 2049) (hu : s.framer.position = .unread)
    (hp : s.framer.signal = .present) (x : Symbol) : (s.takeUnread x).PlacedParts 0 2049 := by
  have ho : s.framer.position ≠ .outside := by rw [hu]; nofun
  have hb : s.framer.position ≠ .body := by rw [hu]; nofun
  have hc := h.counts
  unfold Framer.counts at hc
  rw [hu] at hc
  unfold State.takeUnread
  split
  · split
    all_goals
      refine h.reposition ho (by simp) (h.run_zero hb) (by simpa using ho) ?_
      unfold Framer.counts
      simpa [hu] using hc
  · exact h.takeUnexpected ho hb hp x

theorem State.PlacedParts.takeRecordByte (h : s.PlacedParts 1 2049) {r : RecordProgress} (hr : s.framer.position = .record r)
    (b : Byte) (err : Bool) : (s.takeRecordByte r b err).PlacedParts 0 2049 := by
  have ho : s.framer.position ≠ .outside := by rw [hr]; nofun
  have hc := h.counts
  unfold Framer.counts at hc
  rw [hr] at hc
  obtain ⟨h5, hlim, hbytes⟩ := hc
  have hbody : (s.breakRun.setPosition .body).PlacedParts 0 2049 := h.reposition ho (by simp) rfl nofun ⟨h5, hlim⟩
  unfold State.takeRecordByte State.takeLength State.finishRecord
  dsimp only
  split
  · split
    · refine h.reposition ho (by simp) ?_ nofun ?_
      · simp [State.breakRun]
      · unfold Framer.counts
        simpa [State.damagedRecord, State.setPosition, State.markFaulted] using ⟨h5, hlim⟩
    next hlen =>
      have hle : b.toNat ≤ 48 := by
        rw [Bool.or_eq_true, not_or] at hlen
        exact Nat.le_of_not_lt fun hlt => hlen.2 (decide_eq_true hlt)
      refine h.reposition ho (by simp) rfl nofun ⟨h5, hlim, fun _ => ⟨by simpa using hle, by simp⟩⟩
  next hne =>
    have hne' : r.bytes ≠ [] := by simpa using hne
    obtain ⟨h48, hfit⟩ := hbytes hne'
    have hlen := RecordProgress.take_length (by simpa using hne) b err
    have hl : (r.take b err).length ≤ 48 := by rw [hlen]; exact h48
    split
    · split
      · exact hbody.deliver nofun hl
      · exact h.reposition ho (by simp) (by simp [State.damagedRecord, State.breakRun]) (by simp [State.setPosition])
          (by unfold Framer.counts; simpa using ⟨h5, hlim⟩)
    next hmore =>
      refine h.reposition ho (by simp) rfl nofun ⟨h5, hlim, fun _ => ⟨hl, ?_⟩⟩
      have hb' : (r.take b err).bytes.length = r.bytes.length + 1 := by simp [RecordProgress.take]
      have hl' : (r.take b err).length = (r.bytes.getD 0 0#8).toNat := hlen
      have hl'' : ((r.take b err).bytes.getD 0 0#8).toNat = (r.bytes.getD 0 0#8).toNat := hlen
      omega

theorem State.PlacedParts.cutRecord (h : s.PlacedParts late limit) {r : RecordProgress} (hr : s.framer.position = .record r) :
    s.cutRecord.PlacedParts late limit := by
  have hc := h.counts
  unfold Framer.counts at hc
  rw [hr] at hc
  have hrun := h.run_zero (by rw [hr]; nofun)
  exact h.reposition (by rw [hr]; nofun) (by simp) (by simpa using hrun) nofun (by
    show 5 ≤ s.cutRecord.framer.symbolCount ∧ s.cutRecord.framer.symbolCount < limit
    simpa using ⟨hc.1, hc.2.1⟩)

theorem State.PlacedParts.takeRecord (h : s.PlacedParts 1 2049) {r : RecordProgress} (hr : s.framer.position = .record r)
    (hp : s.framer.signal = .present) (x : Symbol) : (s.takeRecord r x).PlacedParts 0 2049 := by
  unfold State.takeRecord
  split
  · exact h.takeRecordByte hr _ _
  · exact h.takeRecordByte hr _ _
  · exact (h.cutRecord hr).takeBody rfl (by simpa using hp) x

theorem State.PlacedParts.takeSymbol (h : s.PlacedParts 1 2049) (hp : s.framer.signal = .present) (x : Symbol) :
    (s.takeSymbol x).PlacedParts 0 2049 := by
  unfold State.takeSymbol
  split
  next ho => exact h.takeOutside ho hp x
  next due hd => exact h.takeHeader hd hp x
  next due hd => exact h.takeStatus hd hp x
  next hb => exact h.takeBody hb hp x
  next r hr => exact h.takeRecord hr hp x
  next hk => exact h.takeSkip hk hp x
  next hu => exact h.takeUnread hu hp x

/-! ### One arrival, silence, and the commands -/

/-- At the limit the train ends, so that an open train stands below it (R21). -/
theorem State.PlacedParts.limitIfDue (h : s.PlacedParts 0 2049) : s.limitIfDue.PlacedParts 0 2048 := by
  unfold State.limitIfDue State.limitBreak
  split
  · split
    next r hr => exact (h.cutRecord hr).endTrain false
    · exact h.endTrain false
  next hno =>
    rw [Bool.and_eq_true, Framer.trainOpen_iff, decide_eq_true_eq, Config.trainLimit] at hno
    refine { h with counts := ?_ }
    have hc := h.counts
    unfold Framer.counts at hc ⊢
    cases hp : s.framer.position <;> simp only [hp] at hc hno ⊢
    case record => exact ⟨hc.1, by have := hno; simp at this; omega, hc.2.2⟩
    case skip => exact ⟨hc.1, by have := hno; simp at this; omega, hc.2.2⟩
    case body | unread => exact ⟨hc.1, by have := hno; simp at this; omega⟩
    all_goals exact hc

theorem State.PlacedParts.leaveIfDue (h : s.PlacedParts 0 2048) : s.leaveIfDue.PlacedParts 0 2048 := by
  unfold State.leaveIfDue
  split
  next hd =>
    simp only [State.leaveDue, Bool.and_eq_true, beq_iff_eq, Bool.not_eq_true', ← Bool.not_eq_true, Framer.trainOpen_iff,
      not_not] at hd
    obtain ⟨⟨⟨hs, ho⟩, -⟩, -⟩ := hd
    have hi : s.inPath = true := by rw [State.inPath, hs]; rfl
    have hdrain := h.seated.link.exclusive hi
    have hm := h.pending_none (.inr ho)
    have hk := h.position_none ho
    have hn := h.run_zero (by rw [ho]; nofun)
    exact { h with
      seated := { h.seated with
        link := { h.seated.link with
          exclusive := fun _ => hdrain
          cleanIn := fun hc => absurd (h.seated.link.cleanIn hc) (by rw [hs]; nofun)
          heldIn := fun _ => .inr rfl
          observes := fun _ => h.seated.link.observes (.inl hs) }
        switch := fun _ => by simp [State.inPath, LinkState.inPath, hdrain]
        line := nofun
        drain := fun _ => Nat.zero_le _ }
      pendingIn := fun hne => absurd hm hne
      positionIn := fun k hk' => by simp [hk] at hk'
      runIn := fun hne => absurd hn hne }
  · exact h

/-- The line moves and the Framer counts the arrival. -/
theorem State.PlacedParts.heard (h : s.PlacedParts 0 2048) (x : LineSymbol) :
    State.PlacedParts 1 2049 { (s.moveLine x) with framer := s.framer.hear } := by
  have hlen : (s.moveLine x).delay.length = s.delay.length := by
    unfold State.moveLine
    split
    · rfl
    split
    next hi =>
      have h64 := h.seated.line hi
      simp [h64]
    · rfl
  have hm : (s.moveLine x).PlacedParts 0 2048 := h.same (by simp [hlen])
  have hf : (s.moveLine x).framer = s.framer := by simp
  exact
    { seated := { hm.seated with lost := nofun, present := fun _ => by show 0 < 128; decide }
      counts := Framer.counts_hear h.counts
      gone := nofun
      pendingIn := fun hne => hf ▸ hm.pendingIn hne
      positionIn := fun k hk => hf ▸ hm.positionIn k hk
      runIn := fun hne => hf ▸ hm.runIn hne }

theorem State.PlacedParts.arrive (h : s.PlacedParts 0 2048) (x : LineSymbol) : (s.arrive x).PlacedParts 0 2048 := by
  unfold State.arrive
  split
  · unfold State.hearSymbol State.takeArrival
    exact ((h.heard x).takeSymbol rfl x.taken).limitIfDue.leaveIfDue
  · exact h.same (by simp)

theorem State.PlacedParts.arriveAll (h : s.PlacedParts 0 2048) (xs : List LineSymbol) : (s.arriveAll xs).PlacedParts 0 2048 := by
  induction xs generalizing s with
  | nil => exact h
  | cons x xs ih => exact ih (h.arrive x)

theorem State.PlacedParts.finishDrain (h : s.PlacedParts late limit) (hd : s.link.draining = true) :
    s.finishDrain.PlacedParts late limit :=
  { h with seated := State.Seated.drainOver (s := s.emit _) (h.seated.frame (by simp)) hd }

theorem State.PlacedParts.drainTick (h : s.PlacedParts late limit) (hd : s.link.draining = true) :
    s.drainTick.PlacedParts late limit := by
  unfold State.drainTick
  split
  next x hx =>
    have hsent : State.Seated { s.emit [.readable x] with delay := s.delay.dropLast } :=
      { h.seated with
        line := fun hi => by
          rw [h.seated.link.exclusive hi] at hd
          cases hd
        drain := fun _ => by
          have := h.seated.drain hd
          simp
          omega }
    dsimp only
    split
    · exact { h with seated := hsent.drainOver hd }
    · exact { h with seated := hsent }
  · exact h.finishDrain hd

/-- The declaration of a loss of signal, with no drain on (R23, R33). -/
theorem State.PlacedParts.declareLoss (h : s.PlacedParts late limit) : s.declareLoss.PlacedParts 0 2048 := by
  have hseat : State.Seated (State.report 5 { s with framer := { s.framer with signal := .lost, silence := Config.silenceLimit } }) :=
    State.Seated.frame (s := { s with framer := { s.framer with signal := .lost, silence := Config.silenceLimit } })
      { h.seated with lost := fun _ => rfl, present := nofun } (by simp)
  have hended : State.PlacedParts 0 2048 (if s.framer.trainOpen then
      (State.report 5 { s with framer := { s.framer with signal := .lost, silence := Config.silenceLimit } }).trainEnd false
      else State.report 5 { s with framer := { s.framer with signal := .lost, silence := Config.silenceLimit } }) ∧
      (if s.framer.trainOpen then
      (State.report 5 { s with framer := { s.framer with signal := .lost, silence := Config.silenceLimit } }).trainEnd false
      else State.report 5 { s with framer := { s.framer with signal := .lost, silence := Config.silenceLimit } }).framer.position = .outside := by
    split
    · exact ⟨hseat.trainEnd (fun hi => by simpa using h.pending_none (.inl (by simpa [State.inPath] using hi))) false, rfl⟩
    next ho =>
      rw [Framer.trainOpen_iff, not_not] at ho
      refine ⟨hseat.placed_outside (by simpa using ho) ?_ ?_ ?_ ?_, by simpa using ho⟩
      · have hc := h.counts
        unfold Framer.counts at hc
        rw [ho] at hc
        simpa using hc
      · simpa using h.position_none ho
      · simpa using h.run_zero (by rw [ho]; nofun)
      · simpa using h.pending_none (.inr ho)
  unfold State.declareLoss
  dsimp only
  obtain ⟨hp, ho⟩ := hended
  revert hp ho
  generalize (if s.framer.trainOpen then _ else _ : State) = u
  intro hp ho
  have hm := hp.pending_none (.inr ho)
  have hk := hp.position_none ho
  have hn := hp.run_zero (by rw [ho]; nofun)
  exact { hp with
    seated := hp.seated.loseSignal _
    pendingIn := fun hne => absurd (by simpa using hm) hne
    positionIn := fun k hk' => by simp [hk] at hk'
    runIn := fun hne => absurd hn hne }

theorem State.PlacedParts.fallSilent (h : s.PlacedParts 0 2048) : s.fallSilent.PlacedParts 0 2048 := by
  have hd : (if s.link.draining = true then s.finishDrain else s).PlacedParts 0 2048 := by
    split
    next hd => exact h.finishDrain hd
    · exact h
  unfold State.fallSilent
  dsimp only
  generalize (if s.link.draining = true then s.finishDrain else s) = u at hd ⊢
  split
  · split
    · exact hd.declareLoss
    · exact hd
  · exact h

theorem State.PlacedParts.occur (h : s.PlacedParts 0 2048) (o : Occasion) : (s.occur o).PlacedParts 0 2048 := by
  cases o with
  | arrival x => exact h.arrive x
  | silence => exact h.fallSilent

theorem State.PlacedParts.countSilence (h : s.PlacedParts 0 2048) : s.countSilence.PlacedParts 0 2048 := by
  unfold State.countSilence
  split
  next hp =>
    have hp : s.framer.signal = .present := by simpa using hp
    split
    next hlt =>
      exact { h with
        seated := { h.seated with
          lost := fun hl => by rw [hp] at hl; cases hl
          present := fun _ => hlt } }
    · exact h.declareLoss
  · exact h

theorem State.PlacedParts.symbolTime (h : s.PlacedParts 0 2048) : s.symbolTime.PlacedParts 0 2048 := by
  unfold State.symbolTime
  split
  · split
    next hd => exact (h.drainTick hd).countSilence
    · exact h.countSilence
  · exact h

theorem State.PlacedParts.comesAbout (h : s.PlacedParts 0 2048) {named : State → State → Bool} {event : State → State}
    (he : ∀ u : State, u.PlacedParts 0 2048 → (event u).PlacedParts 0 2048) (hs : s.comesAbout named event = .next t) :
    t.PlacedParts 0 2048 := by
  have hq : s.quiet.PlacedParts 0 2048 := h.same (by simp)
  unfold State.comesAbout at hs
  dsimp only at hs
  split at hs <;> obtain rfl := Host.Outcome.next.inj hs
  · exact he _ hq
  · exact hq

/-- The blocks at their reset values are placed (R12, R24, R27, R39). -/
theorem State.resetBlocks_placed (s : State) : s.resetBlocks.PlacedParts 0 2048 :=
  State.Seated.placed_outside
    { link :=
        { exclusive := nofun
          drainTa := nofun
          clean := Nat.zero_le _
          cleanIn := nofun
          held := Nat.zero_le _
          heldIn := fun hne => absurd rfl hne
          bypass := nofun
          observes := nofun }
      switch := fun _ => rfl
      line := nofun
      drain := nofun
      lost := nofun
      present := fun _ => by show 0 < 128; decide } rfl rfl rfl rfl rfl

/-- The supply and the pins are no part of the place, but for the switch, which a lost supply leaves closed. -/
theorem State.PlacedParts.powered (h : s.PlacedParts 0 2048) (hs : s.link.bypassClosed = !(s.inPath || s.link.draining)) :
    State.PlacedParts 0 2048 { s with powered := true } :=
  { h with seated := { h.seated with switch := fun _ => hs } }

end

theorem exec_placed {c : Instr} {s t : State} (h : s.PlacedParts 0 2048) (hs : exec c s = .next t) : t.PlacedParts 0 2048 := by
  have hq : s.quiet.PlacedParts 0 2048 := h.same (by simp)
  cases hc : requestOf c with
  | some q =>
    rw [exec_request hc] at hs
    obtain rfl := Host.Outcome.next.inj hs
    exact hq.arriveAll _
  | none =>
    cases c
    case powerOn =>
      obtain rfl := Host.Outcome.next.inj hs
      exact State.PlacedParts.same (s.quiet.resetBlocks_placed.powered rfl) ⟨rfl, rfl, rfl, rfl, rfl, rfl⟩
    case resetnAssert =>
      obtain rfl := Host.Outcome.next.inj hs
      have hb : (if s.powered = true then s.quiet.resetBlocks else s.quiet).PlacedParts 0 2048 := by
        split
        · exact s.quiet.resetBlocks_placed
        · exact hq
      exact hb.same ⟨rfl, rfl, rfl, rfl, rfl, rfl⟩
    case resetnRelease =>
      simp only [exec, execResetnRelease] at hs
      split at hs <;> obtain rfl := Host.Outcome.next.inj hs
      · exact hq
      · exact hq.same ⟨rfl, rfl, rfl, rfl, rfl, rfl⟩
    case symbolArrival x =>
      obtain rfl := Host.Outcome.next.inj hs
      exact hq.arrive x
    case lossOfSignal =>
      obtain rfl := Host.Outcome.next.inj hs
      exact hq.fallSilent
    case drainEnd =>
      obtain rfl := Host.Outcome.next.inj hs
      split
      next hd => exact hq.finishDrain (Bool.and_eq_true .. ▸ hd).2
      · exact hq
    case dataRecordCompletion =>
      obtain rfl := Host.Outcome.next.inj hs
      exact hq.arriveAll _
    case powerLoss =>
      obtain rfl := Host.Outcome.next.inj hs
      exact { hq with
        seated := { hq.seated with
          link := { hq.seated.link with exclusive := fun _ => rfl, drainTa := nofun }
          switch := nofun
          drain := nofun } }
    case trainLimitBreak | joinWaitEntry | leavingThePath | noticePlacement =>
      simp only [exec, execTrainLimitBreak, execJoinWaitEntry, execLeavingThePath, execNoticePlacement] at hs
      exact h.comesAbout (fun u hu => hu.arrive _) hs
    case heldCountExpiry | periodExpiry | stale | captureTimeout | trialDone =>
      simp only [exec, execHeldCountExpiry, execPeriodExpiry, execStale, execCaptureTimeout, execTrialDone,
        State.comesAboutAtEnd] at hs
      exact h.comesAbout (fun u hu => hu.occur _) hs
    all_goals cases hc

/-- Settles O58: the Framer's taking of a symbol, the train's starts and ends, a drain and a reset each keep the part placed. -/
theorem everyStepKeepsThePartPlaced : Obligations.EveryStepKeepsThePartPlaced := by
  unfold Obligations.EveryStepKeepsThePartPlaced
  intro s t h hs
  rw [State.placed_iff] at h ⊢
  unfold step at hs
  split at hs
  · obtain rfl := Host.Outcome.next.inj hs
    exact State.PlacedParts.symbolTime (h.same (by simp))
  next c rest _ => exact exec_placed (s := { s with pending := rest }) (h.same ⟨rfl, rfl, rfl, rfl, rfl, rfl⟩) hs

end Sys2Proof.Machine
end

section
/-! PROOF. The short statements: the step's dispatch, the addresses of entries, the check, a factor's rise, the part without its supply, and
the part after reset (R11, R27, R28, R65, R125, R132, R139). -/

namespace Sys2Proof.Machine

/-- Settles O1: on a queue that is not empty the step is the front command on the rest. -/
theorem stepRunsTheFrontCommand : Obligations.StepRunsTheFrontCommand := by
  unfold Obligations.StepRunsTheFrontCommand
  exact fun _ _ _ => rfl

/-- Settles O60: the bounded forms of the invariants, decided on the reset state. -/
theorem theResetStateIsLawful : Obligations.TheResetStateIsLawful := by
  unfold Obligations.TheResetStateIsLawful
  exact Tests.test_reset_is_lawful

/-- Settles O11, by the ranges of the address byte. -/
theorem anAddressNamesAnEntry : Obligations.AnAddressNamesAnEntry := by
  unfold Obligations.AnAddressNamesAnEntry
  intro s address
  unfold State.resolve
  refine ⟨fun h => if_pos h, fun place hp ha => ?_, fun place hp ha => ?_, fun h => ?_⟩
  · have hplace : s.table.w0 * 8 + (address.toNat - 128) = 8 * s.table.w0 + place := by omega
    simp only [hplace]
    rw [if_neg (by omega), if_pos (by omega)]
  · have hplace : s.table.w1 * 8 + (address.toNat - 136) = 8 * s.table.w1 + place := by omega
    simp only [hplace]
    rw [if_neg (by omega), if_neg (by omega), if_pos (by omega)]
  · dsimp only
    rw [if_neg (by omega), if_neg (by omega), if_neg (by omega)]

/-! ### The check (R11) -/

/-- One bit into the register in the statement's words: 4129 is combined when the leaving bit differs from the bit coming in. -/
theorem checkBit_eq (r : Word) (b : Bool) :
    checkBit r b = (r <<< 1) ^^^ (if r.getLsbD 15 = b then 0#16 else 4129#16) := by
  have hm : r.msb = r.getLsbD 15 := by rw [BitVec.msb_eq_getLsbD_last]
  rw [checkBit, hm]
  cases r.getLsbD 15 <;> cases b <;> simp

/-- A bit equal to the one that leaves only shifts the register. -/
theorem checkBit_msb (r : Word) : checkBit r (r.getLsbD 15) = r <<< 1 := by
  rw [checkBit_eq, if_pos rfl, BitVec.xor_zero]

/-- The register's own high byte shifts it by eight. -/
theorem checkByte_highByte (r : Word) : checkByte r (highByte r) = r <<< 8 := by
  have hbit (n k : Nat) (hk : n + k = 7) : checkBit (r <<< n) ((highByte r).getLsbD k) = r <<< (n + 1) := by
    have hmsb : (highByte r).getLsbD k = (r <<< n).getLsbD 15 := by
      have h1 : k < 8 := by omega
      have h2 : ¬ 15 < n := by omega
      have h3 : 8 + k = 15 - n := by omega
      simp [highByte, h1, h2, h3, BitVec.getLsbD_eq_getElem (x := r) (i := 15 - n) (by omega)]
    rw [hmsb, checkBit_msb, ← BitVec.shiftLeft_add]
  have hfirst : checkBit r ((highByte r).getLsbD 7) = r <<< 1 := by simpa using hbit 0 7 rfl
  unfold checkByte
  simp only [List.foldl_cons, List.foldl_nil]
  rw [hfirst, hbit 1 6 rfl, hbit 2 5 rfl, hbit 3 4 rfl, hbit 4 3 rfl, hbit 5 2 rfl, hbit 6 1 rfl, hbit 7 0 rfl]

/-- The check's own two bytes take the register to 0. -/
theorem checkByte_wordBytes (r : Word) : checkByte (checkByte r (highByte r)) (lowByte r) = 0#16 := by
  have hlow : lowByte r = highByte (r <<< 8) := by
    apply BitVec.eq_of_getLsbD_eq
    intro i hi
    simp [highByte, lowByte, hi, BitVec.getLsbD_eq_getElem, show i < 16 by omega, show 8 + i < 16 by omega]
  rw [checkByte_highByte, hlow, checkByte_highByte, ← BitVec.shiftLeft_add]
  exact BitVec.shiftLeft_eq_zero (by decide)

/-- Settles O26: bit by bit, the test bytes by evaluation, and the appended check by two shifts of eight. -/
theorem theCheckIsTheCyclicCheck : Obligations.TheCheckIsTheCyclicCheck := by
  unfold Obligations.TheCheckIsTheCyclicCheck
  intro bit
  have hbit : bit = checkBit := funext fun r => funext fun b => (checkBit_eq r b).symm
  refine ⟨fun covered => ?_, Tests.test_check_of_the_nine_bytes.1, fun covered => ?_⟩
  · rw [hbit]
    rfl
  · rw [checkOf, List.foldl_append]
    exact checkByte_wordBytes (checkOf covered)

/-! ### A rise and a push (R125, R139) -/

/-- A factor that is pending stays as it is. -/
theorem State.raise_pending {f : Factor} {s : State} (h : s.alert.flags.get f = true) : s.raise f = s := by
  rw [State.raise, AlertUnit.raise, if_pos h]

/-- The rise of a factor that is clear. -/
theorem State.raise_clear {f : Factor} {s : State} (h : s.alert.flags.get f = false) :
    s.raise f = { s with
      alert := { s.alert with
        flags := s.alert.flags.set f true
        noticeWaiting := s.alert.noticeWaiting || (s.alert.noticeEnable && decide (s.alert.threshold ≤ s.alert.levels.get f))
        noticeCause := if (s.alert.noticeEnable && decide (s.alert.threshold ≤ s.alert.levels.get f)) = true then f
          else s.alert.noticeCause
        alertn := reaches (s.alert.flags.set f true) s.alert.levels s.alert.threshold } } := by
  rw [State.raise, AlertUnit.raise, if_neg (by simp [h]), AlertUnit.settle, AlertUnit.asserts_eq, AlertUnit.rise]
  split <;> simp [*]

/-- Settles O30: a pending factor and a clear one; room in the queue and none. -/
theorem aFactorRisesAndAnIncidentJoins : Obligations.AFactorRisesAndAnIncidentJoins := by
  unfold Obligations.AFactorRisesAndAnIncidentJoins
  exact ⟨fun _ _ => ⟨State.raise_pending, State.raise_clear⟩, fun _ _ _ _ => rfl⟩

/-! ### Without the supply (R132) -/

/-- A part that does not run lets an arrival pass. -/
theorem State.arrive_notRunning {s : State} (h : s.running = false) (x : LineSymbol) : s.quiet.arrive x = { s with dn := [x] } := by
  have hq : s.quiet.running = false := h
  rw [State.arrive, if_neg (by rw [hq]; simp)]
  rfl

/-- Settles O32: the loss of the supply as written; an arrival at a part that does not run. -/
theorem anUnpoweredPartOnlyPassesTheLine : Obligations.AnUnpoweredPartOnlyPassesTheLine := by
  unfold Obligations.AnUnpoweredPartOnlyPassesTheLine
  refine fun s => ⟨rfl, fun h x => congrArg Host.Outcome.next (State.arrive_notRunning ?_ x)⟩
  rw [State.running]
  rcases h with h | h <;> simp [h]

end Sys2Proof.Machine
end

section
/-! PROOF. The two requests that report the part, IDENTIFY and READ STATUS: the bytes one by one (R152, R153, R191). -/

namespace Sys2Proof.Machine

/-! ### IDENTIFY and READ STATUS -/

/-- Settles O3: the nine bytes are constants. -/
theorem identifyReportsThePart : Obligations.IdentifyReportsThePart := by
  unfold Obligations.IdentifyReportsThePart
  intro target tag operands s ha hlen
  exact answered .identify rfl ha hlen rfl hlen rfl

/-- The factor set as a sum: its bits do not overlap (R190). -/
theorem AlertUnit.factorSet_eq (a : AlertUnit) : a.factorSet = factorByte a.flags a.alertn := by
  have join : ∀ t s l q o i d n : Bool,
      bitAt t 0 ||| bitAt s 1 ||| bitAt l 2 ||| bitAt q 3 ||| bitAt o 4 ||| bitAt i 5 ||| bitAt d 6 ||| bitAt n 7 =
        factorByte ⟨t, s, l, q, o, i, d⟩ n := by decide
  exact join ..

/-- Four levels of 0 to 3 in one byte: they do not overlap, so joining them adds them (R191). -/
theorem levels_byte {a b c d : Nat} (ha : a ≤ 3) (hb : b ≤ 3) (hc : c ≤ 3) (hd : d ≤ 3) :
    fieldAt a 0 ||| fieldAt b 2 ||| fieldAt c 4 ||| fieldAt d 6 = BitVec.ofNat 8 (a + 4 * b + 16 * c + 64 * d) := by
  have join : ∀ a b c d : Fin 4, fieldAt a 0 ||| fieldAt b 2 ||| fieldAt c 4 ||| fieldAt d 6 =
      BitVec.ofNat 8 (a + 4 * b + 16 * c + 64 * d) := by decide
  exact join ⟨a, by omega⟩ ⟨b, by omega⟩ ⟨c, by omega⟩ ⟨d, by omega⟩

/-- Settles O4: the report's bytes by the fields they are made of. -/
theorem readStatusReportsTheState : Obligations.ReadStatusReportsTheState := by
  unfold Obligations.ReadStatusReportsTheState
  intro target tag operands s ha hlen hlevels bit byte a
  refine answered .readStatus rfl ha hlen rfl hlen ?_
  refine congrArg (fun data => State.replied target tag operands 0#8 data _) ?_
  have hlow : fieldAt a.levels.trip 0 ||| fieldAt a.levels.stale 2 ||| fieldAt a.levels.link 4 ||| fieldAt a.levels.qfull 6 =
      byte (a.levels.trip + 4 * a.levels.stale + 16 * a.levels.link + 64 * a.levels.qfull) :=
    levels_byte (hlevels .trip) (hlevels .stale) (hlevels .link) (hlevels .qfull)
  have hhigh : fieldAt a.levels.slot 0 ||| fieldAt a.levels.isol 2 ||| fieldAt a.levels.opdone 4 =
      byte (a.levels.slot + 4 * a.levels.isol + 16 * a.levels.opdone) :=
    (BitVec.or_zero ..).symm.trans (levels_byte (hlevels .slot) (hlevels .isol) (hlevels .opdone) (Nat.zero_le 3))
  have hbits (x y : Bool) : bitAt x 0 ||| bitAt y 1 = byte (bit x 0 + bit y 1) := by revert x y; decide
  have hlast (k : ResultKind) (c : EndCause) : fieldAt k.code 0 ||| fieldAt c.code 2 =
      byte ((match k with | .none => 0 | .capture => 1 | .trial => 2) + 4 * (match c with | .done => 0 | .timeout => 1 | .aborted => 2)) := by
    cases k <;> cases c <;> rfl
  have hflag (x : Bool) : flagByte x = byte (bit x 0) := by cases x <;> rfl
  have hmode : byteOf s.link.mode.code = match s.link.mode with | .observe => 1#8 | .active => 2#8 := by
    cases s.link.mode <;> rfl
  have hpending : byteOf s.link.pendingMode.code =
      match s.link.pendingMode with | .none => 0#8 | .observe => 1#8 | .active => 2#8 | .bypass _ => 3#8 := by
    cases s.link.pendingMode <;> rfl
  have hheld : byteOf s.link.pendingMode.held = match s.link.pendingMode with | .bypass h => byte h | _ => 0#8 := by
    cases s.link.pendingMode <;> rfl
  have hslot : byteOf s.op.slot.code = match s.op.slot with | .idle => 0#8 | .capture _ => 1#8 | .trial _ => 2#8 := by
    cases s.op.slot <;> rfl
  have habort : byteOf s.op.pendingAbort.code =
      match s.op.pendingAbort with | .none => 0#8 | .atTrip => 3#8 | .atTrain => 4#8 := by
    cases s.op.pendingAbort <;> rfl
  show s.statusReport = _
  simp only [State.statusReport, AlertUnit.factorSet_eq, wordBytes, highByte_ofNat, lowByte_ofNat, hflag, hbits, hlast, hmode,
    hpending, hheld, hslot, habort]
  rw [hlow, hhigh]
  rfl

end Sys2Proof.Machine
end

section
/-! PROOF. READ ENTRY, SET ALERTS, CLEAR ALERTS, SET WINDOWS, LOAD SLOT and READ CAPTURE, each by its checks in order (R131, R134, R135,
R155, R157 to R159, R164, R176). -/

namespace Sys2Proof.Machine

/-! ### READ ENTRY -/

theorem Live.trialBytes_length (l : Live) : l.trialBytes.length = 5 := by
  unfold Live.trialBytes
  cases l.trial <;> rfl

theorem Entry.image_length (e : Entry) : e.image.length = 24 := by
  rw [Entry.image_eq, List.length_append, Live.trialBytes_length]
  rfl

/-- READ ENTRY on entry i, by the count of images asked for (R155). -/
theorem reqReadEntry_eq {ops : List Byte} {s : State} {i : Nat} (h : s.resolve (operand ops 0) = some i) :
    reqReadEntry ops s =
      if operandNat ops 1 = 1 then { result := .ok, data := (s.entry i).image, state := s }
      else if operandNat ops 1 = 2 then
        (if ops.length < 48 ∨ i = 63 then { result := .partially, data := (s.entry i).image, state := s }
        else { result := .ok, data := (s.entry i).image ++ (s.entry (i + 1)).image, state := s })
      else refuse .badValue [] s :=
  withEntry_some h

/-- Settles O6: by the count asked for and the room, with the statement's image the entry's. -/
theorem readEntryReturnsImages : Obligations.ReadEntryReturnsImages := by
  unfold Obligations.ReadEntryReturnsImages
  intro target tag address count rest s i operands after byte high low flag image ha hlen hres
  have himage : image = Entry.image := by
    funext e
    rw [Entry.image_eq, Entry.stateByte_eq, EntryConfig.kindByte_eq, EntryConfig.fieldByte_eq, Live.trialBytes_eq]
    rfl
  rw [himage]
  have hreq := reqReadEntry_eq (ops := operands) (s := after) hres
  have hone := Entry.image_length (s.entry i)
  have hnext := Entry.image_length (s.entry (i + 1))
  by_cases h1 : count.toNat = 1
  · rw [if_pos h1]
    exact answered .readEntry rfl ha hlen (hreq.trans (if_pos h1)) (hone.trans_le hlen) rfl
  rw [if_neg h1]
  replace hreq := hreq.trans (if_neg h1)
  by_cases h2 : count.toNat = 2
  · rw [if_pos h2]
    replace hreq := hreq.trans (if_pos h2)
    by_cases hp : operands.length < 48 ∨ i = 63
    · rw [if_pos hp]
      exact answered .readEntry rfl ha hlen (hreq.trans (if_pos hp)) (hone.trans_le hlen) rfl
    · rw [if_neg hp]
      refine answered .readEntry rfl ha hlen (hreq.trans (if_neg hp)) ?_ rfl
      have hsum : ((s.entry i).image ++ (s.entry (i + 1)).image).length = 48 := by rw [List.length_append, hone, hnext]
      exact hsum.trans_le (by omega)
  · rw [if_neg h2]
    exact answered .readEntry rfl ha hlen (hreq.trans (if_neg h2)) (Nat.zero_le _) rfl

/-! ### SET ALERTS and CLEAR ALERTS -/

/-- The settings adopted, with the line in the words of the statements (R131, R132). -/
theorem AlertUnit.adopt_eq (levels : PerFactor Nat) (threshold : Nat) (enable : Bool) (a : AlertUnit) :
    a.adopt levels threshold enable =
      { a with
        levels := levels, threshold := threshold, noticeEnable := enable, noticeWaiting := a.noticeWaiting && enable
        alertn := reaches a.flags levels threshold } := by
  rw [AlertUnit.adopt, AlertUnit.settle, AlertUnit.asserts_eq]

/-- Settles O8: by whether the nine values are legal. -/
theorem setAlertsWritesAllNineOrNone : Obligations.SetAlertsWritesAllNineOrNone := by
  unfold Obligations.SetAlertsWritesAllNineOrNone
  intro target tag l0 l1 l2 l3 l4 l5 l6 threshold enable rest s operands a before levels after ha
  have hlen : 9 ≤ operands.length := Nat.le_add_left ..
  have hbefore : s.alert.settings = before := rfl
  have hlegal : (levelsLegal (levelsOf operands) && decide (1 ≤ operandNat operands 7) && decide (operandNat operands 7 ≤ 3)) = true ↔
      (∀ l ∈ [l0, l1, l2, l3, l4, l5, l6], l.toNat ≤ 3) ∧ 1 ≤ threshold.toNat ∧ threshold.toNat ≤ 3 := by
    simp [levelsLegal, allFactors, PerFactor.get, levelsOf, operandNat, operand, operands, and_assoc]
  by_cases hc : (∀ l ∈ [l0, l1, l2, l3, l4, l5, l6], l.toNat ≤ 3) ∧ 1 ≤ threshold.toNat ∧ threshold.toNat ≤ 3
  · rw [if_pos hc]
    refine answered .setAlerts rfl ha hlen (if_pos (hlegal.2 hc)) hlen ?_
    rw [AlertUnit.adopt_eq]
    rfl
  · rw [if_neg hc]
    exact answered .setAlerts rfl ha hlen (if_neg (mt hlegal.1 hc)) hlen rfl

/-- The pending flags after the factor step, in the words of the statements (R126, R135). -/
def State.flagsCleared (mask : Byte) (entries : List Entry) (s : State) : PerFactor Bool :=
  let f := s.alert.flags
  { trip := f.trip && !(mask.getLsbD 0 && entries.all fun e => e.live.condition != .tripped)
    stale := f.stale && !(mask.getLsbD 1 && entries.all fun e => e.live.timing != .stale)
    link := f.link && !mask.getLsbD 2
    qfull := f.qfull && !(mask.getLsbD 3 && decide (s.queue.items.length < 32))
    slot := f.slot && !mask.getLsbD 4
    isol := f.isol && !(mask.getLsbD 5 && !s.reaction.isolated)
    opdone := f.opdone && !mask.getLsbD 6 }

/-- A clear by CLEAR ALERTS: the entries its scope leaves, and the factors its mask clears over them (R134, R135). -/
theorem State.clear_eq (mask : Byte) {scope : ClearScope} {s : State} {entries : List Entry}
    (he : s.clearEntries scope = { s with table := { s.table with entries := entries } }) :
    s.clear (maskOf mask) scope =
      { s with
        table := { s.table with entries := entries }
        alert := { s.alert with
          flags := s.flagsCleared mask entries
          alertn := reaches (s.flagsCleared mask entries) s.alert.levels s.alert.threshold } } := by
  have htrip : entries.all (fun e => e.live.condition != .tripped) = !entries.any fun e => e.live.condition == .tripped := by
    rw [List.not_any_eq_all_not]; rfl
  have hstale : entries.all (fun e => e.live.timing != .stale) = !entries.any fun e => e.live.timing == .stale := by
    rw [List.not_any_eq_all_not]; rfl
  rw [State.clear, he, State.clearFactors, AlertUnit.settle, AlertUnit.asserts_eq]
  simp only [State.flagsCleared, State.flagAfterClear, State.clears, State.anyTripped, State.anyStale, PerFactor.get, maskOf,
    Bool.and_true, htrip, hstale, Config.incidentCapacity]
  rfl

/-- CLEAR ALERTS with a scope that is coded answers OK with the factor set it leaves (R158). -/
theorem clearAlertsAnswered {target tag mask : Byte} {operands : List Byte} {s : State} {entries : List Entry} {scope : ClearScope}
    (ha : s.addressed target operands) (hlen : 3 ≤ operands.length)
    (hr : reqClearAlerts operands (s.afterRequest target tag 4#8 operands) =
      clearResponse (maskOf mask) scope (s.afterRequest target tag 4#8 operands))
    (he : (s.afterRequest target tag 4#8 operands).clearEntries scope =
      { s.afterRequest target tag 4#8 operands with table := { s.table with entries := entries } }) :
    exec (.clearAlerts target tag operands) s =
      .next (({ s.afterRequest target tag 4#8 operands with
        table := { s.table with entries := entries }
        alert := { (s.afterRequest target tag 4#8 operands).alert with
          flags := s.flagsCleared mask entries
          alertn := reaches (s.flagsCleared mask entries) s.alert.levels s.alert.threshold } }).replied target tag operands 0#8
            [factorByte (s.flagsCleared mask entries)
              (reaches (s.flagsCleared mask entries) s.alert.levels s.alert.threshold)]) := by
  refine answered .clearAlerts rfl ha hlen hr (Nat.le_of_succ_le (Nat.le_of_succ_le hlen)) ?_
  simp only [clearResponse, State.clear_eq mask he, AlertUnit.factorSet_eq]
  rfl

/-- Settles O9, by the scope. -/
theorem clearAlertsReleasesThenClears : Obligations.ClearAlertsReleasesThenClears := by
  unfold Obligations.ClearAlertsReleasesThenClears
  intro target tag mask scope address rest s entries operands release f flags alertn after ha
  have hlen : 3 ≤ operands.length := Nat.le_add_left ..
  have hrelease : release = Entry.released := by
    funext e
    simp only [release, Entry.released, Bool.and_eq_true, beq_iff_eq, and_assoc]
  rw [hrelease]
  have hscope : operandNat operands 1 = scope.toNat := rfl
  refine ⟨?_, fun h2 => ?_⟩
  · rintro (⟨h0, rfl⟩ | ⟨h1, i, hi, rfl⟩ | ⟨h2, rfl⟩)
    · exact clearAlertsAnswered (mask := mask) (scope := .noEntry) ha hlen
        (by simp only [reqClearAlerts, hscope, h0]; rfl) rfl
    · have hi' : after.resolve (operand operands 2) = some i := hi
      exact clearAlertsAnswered (mask := mask) (scope := .oneEntry i) ha hlen
        (by simp only [reqClearAlerts, hscope, h1]; rw [hi']; rfl) rfl
    · exact clearAlertsAnswered (mask := mask) (scope := .allEntries) ha hlen
        (by simp only [reqClearAlerts, hscope, h2]; rfl) rfl
  · have hr : reqClearAlerts operands after = refuse .badValue [] after := by
      unfold reqClearAlerts
      rw [hscope]
      split
      case h_4 => rfl
      all_goals omega
    exact answered .clearAlerts rfl ha hlen hr (Nat.zero_le _) rfl

/-! ### SET WINDOWS, LOAD SLOT and READ CAPTURE -/

/-- Settles O10: by whether both values are legal. -/
theorem setWindowsSetsBothOrNeither : Obligations.SetWindowsSetsBothOrNeither := by
  unfold Obligations.SetWindowsSetsBothOrNeither
  intro target tag w0 w1 rest s operands before after ha
  have hlen : 2 ≤ operands.length := Nat.le_add_left ..
  by_cases hw : w0.toNat ≤ 7 ∧ w1.toNat ≤ 7
  · rw [if_pos hw]
    exact answered .setWindows rfl ha hlen (if_pos hw) hlen rfl
  · rw [if_neg hw]
    exact answered .setWindows rfl ha hlen (if_neg hw) hlen rfl

/-- LOAD SLOT, by its three checks in order (R164). -/
theorem reqLoadSlot_eq (slot length : Byte) (rest : List Byte) (s : State) :
    reqLoadSlot (slot :: length :: rest) s =
      if 15 < slot.toNat then refuse .badValue [0#8] s
      else if 48 < length.toNat then refuse .badValue [byteOf (s.slotContent slot.toNat).length] s
      else if rest.length < length.toNat then refuse .badLength [byteOf (s.slotContent slot.toNat).length] s
      else { result := .ok, data := [byteOf (s.slotContent slot.toNat).length],
             state := s.fillSlot slot.toNat (rest.take length.toNat) } := by
  have hroom : (slot :: length :: rest).length < 2 + operandNat (slot :: length :: rest) 1 ↔ rest.length < length.toNat := by
    show rest.length + 1 + 1 < 2 + length.toNat ↔ _
    omega
  simp only [reqLoadSlot, hroom]
  rfl

/-- Settles O16, by the three checks in order. -/
theorem loadSlotReplacesTheSlot : Obligations.LoadSlotReplacesTheSlot := by
  unfold Obligations.LoadSlotReplacesTheSlot
  intro target tag slot length rest s operands before after ha
  have hlen : 2 ≤ operands.length := Nat.le_add_left ..
  have hlen1 : 1 ≤ operands.length := Nat.le_of_succ_le hlen
  have hreq := reqLoadSlot_eq slot length rest after
  by_cases h1 : 15 < slot.toNat
  · rw [if_pos h1]
    exact answered .loadSlot rfl ha hlen (hreq.trans (if_pos h1)) hlen1 rfl
  rw [if_neg h1]
  replace hreq := hreq.trans (if_neg h1)
  by_cases h2 : 48 < length.toNat
  · rw [if_pos h2]
    exact answered .loadSlot rfl ha hlen (hreq.trans (if_pos h2)) hlen1 rfl
  rw [if_neg h2]
  replace hreq := hreq.trans (if_neg h2)
  by_cases h3 : rest.length < length.toNat
  · rw [if_pos h3]
    exact answered .loadSlot rfl ha hlen (hreq.trans (if_pos h3)) hlen1 rfl
  · rw [if_neg h3]
    exact answered .loadSlot rfl ha hlen (hreq.trans (if_neg h3)) hlen1 rfl

/-- Settles O21: what is taken and what is left add up to the bytes held. -/
theorem readCaptureTakesFromTheHead : Obligations.ReadCaptureTakesFromTheHead := by
  unfold Obligations.ReadCaptureTakesFromTheHead
  intro target tag operands s after b rest ha hlen
  have hleft : (s.op.fifo.drop b).length = rest := List.length_drop
  have hfits : (reqReadCapture operands after).data.length ≤ operands.length := by
    have hb : b ≤ operands.length - 3 := Nat.min_le_right ..
    have htake : (s.op.fifo.take b).length ≤ b := List.length_take_le ..
    show (byteOf b :: (wordBytes _ ++ s.op.fifo.take b)).length ≤ _
    simp only [List.length_cons, List.length_append, wordBytes_length]
    omega
  refine answered .readCapture rfl ha hlen rfl hfits ?_
  have hresult : byteOf (reqReadCapture operands after).result.code = if rest = 0 then 0#8 else 1#8 := by
    show byteOf (if (s.op.fifo.drop b).isEmpty = true then Result.ok else .partially).code = _
    simp only [List.isEmpty_iff_length_eq_zero, hleft]
    split <;> rfl
  have hdata : (reqReadCapture operands after).data = [BitVec.ofNat 8 b, BitVec.ofNat 8 (rest / 256), BitVec.ofNat 8 rest] ++ s.op.fifo.take b := by
    show byteOf b :: (wordBytes (BitVec.ofNat 16 (s.op.fifo.drop b).length) ++ s.op.fifo.take b) = _
    rw [hleft, wordBytes, highByte_ofNat, lowByte_ofNat]
    rfl
  show State.replied target tag operands (byteOf (reqReadCapture operands after).result.code) (reqReadCapture operands after).data _ = _
  rw [hresult, hdata]
  rfl

end Sys2Proof.Machine
end

section
/-! PROOF. The requests on one entry: LOAD ENTRY, ARM and START TRIAL, by the entry's state and the checks in order (R56 to R58, R62, R160,
R161, R177). -/

namespace Sys2Proof.Machine

/-! ### The configuration that LOAD ENTRY carries (R56) -/

/-- A template code names a template below 3. -/
theorem templateOf_eq (n : Nat) : templateOf n = [Template.window, .pattern, .delta][n]? := by
  rcases n with _ | _ | _ | n <;> rfl

/-- A reaction code names a reaction below 5. -/
theorem reactionOf_eq (n : Nat) : reactionOf n = [Reaction.pass, .mark, .substitute, .drop, .isolate][n]? := by
  rcases n with _ | _ | _ | _ | _ | n <;> rfl

theorem templateOf_some {n : Nat} {t : Template} (h : templateOf n = some t) : n ≤ 2 := by
  rw [templateOf_eq] at h
  exact Nat.le_of_lt_succ (List.getElem?_eq_some_iff.1 h).1

theorem reactionOf_some {n : Nat} {r : Reaction} (h : reactionOf n = some r) : n ≤ 4 := by
  rw [reactionOf_eq] at h
  exact Nat.le_of_lt_succ (List.getElem?_eq_some_iff.1 h).1

/-- The n bits of a byte from bit k up, by division. -/
theorem bitsOf_eq (b : Byte) (k n : Nat) : bitsOf b k n = b.toNat / 2 ^ k % 2 ^ n := by
  simp [bitsOf, Nat.shiftRight_eq_div_pow]

/-- The comparison of two operands as numbers. -/
theorem lessEq_iff (signed : Bool) (x y : Word) :
    lessEq signed x y = true ↔ if signed = true then x.toInt ≤ y.toInt else x.toNat ≤ y.toNat := by
  cases signed <;> simp [lessEq, BitVec.sle, BitVec.ule]

/-- A pattern's value has no bit outside its mask. -/
theorem pattern_iff (a b : Word) : b &&& a = b ↔ b &&& ~~~a = 0#16 := by
  simp only [BitVec.eq_of_getLsbD_eq_iff, BitVec.getLsbD_and, BitVec.getLsbD_not, BitVec.getLsbD_zero]
  refine forall_congr' fun i => forall_congr' fun hi => ?_
  cases b.getLsbD i <;> cases a.getLsbD i <;> simp [hi]

/-- The checks of R56 on a configuration whose codes are legal. -/
theorem EntryConfig.legal_iff (c : EntryConfig) :
    c.legal = true ↔
      (c.offset + (if c.wide = true then 2 else 1) ≤ 48 ∧ 1 ≤ c.deglitch ∧ c.deglitch ≤ 15 ∧ 1 ≤ c.missLimit ∧ c.missLimit ≤ 15 ∧
        c.slot ≤ 15) ∧
      (c.kind = .window → if c.signed = true then c.a.toInt ≤ c.b.toInt else c.a.toNat ≤ c.b.toNat) ∧
      (c.kind = .pattern → c.b &&& ~~~c.a = 0#16) := by
  have hwidth : c.width = if c.wide = true then 2 else 1 := rfl
  unfold EntryConfig.legal
  rw [hwidth]
  cases c.kind <;> simp [and_assoc, lessEq_iff, pattern_iff]

/-- The configuration that the 12 bytes encode, once its two codes name a template and a reaction. -/
def configFrom (source channel field kind a1 a0 b1 b0 d p m slot : Byte) (template : Template) (reaction : Reaction) : EntryConfig :=
  { source := source, channel := channel, offset := field.toNat % 64, wide := field.getLsbD 6, signed := field.getLsbD 7
    kind := template, a := a1 ++ a0, b := b1 ++ b0, deglitch := d.toNat, period := p.toNat, missLimit := m.toNat
    reaction := reaction, latch := kind.getLsbD 5, slot := slot.toNat }

section

variable {address source channel field kind a1 a0 b1 b0 d p m slot : Byte} {rest : List Byte}

/-- Both codes are legal: the configuration, if it passes the other checks. -/
theorem configOf_some {template : Template} {reaction : Reaction} (ht : templateOf (kind.toNat % 4) = some template)
    (hr : reactionOf (kind.toNat / 4 % 8) = some reaction) :
    configOf (address :: source :: channel :: field :: kind :: a1 :: a0 :: b1 :: b0 :: d :: p :: m :: slot :: rest) 1 =
      if (configFrom source channel field kind a1 a0 b1 b0 d p m slot template reaction).legal = true then
        some (configFrom source channel field kind a1 a0 b1 b0 d p m slot template reaction)
      else none := by
  have hkind : templateOf (bitsOf kind 0 2) = some template := by rw [bitsOf_eq, pow_zero, Nat.div_one]; exact ht
  have hreaction : reactionOf (bitsOf kind 2 3) = some reaction := by rw [bitsOf_eq]; exact hr
  have hoffset : bitsOf field 0 6 = field.toNat % 64 := by rw [bitsOf_eq, pow_zero, Nat.div_one]; rfl
  unfold configOf
  simp only [operand, Nat.reduceAdd, List.getD_cons_succ, List.getD_cons_zero, Nat.add_zero, hkind, hreaction, hoffset]
  rfl

/-- A code that is not legal: no configuration. -/
theorem configOf_none (h : templateOf (kind.toNat % 4) = none ∨ reactionOf (kind.toNat / 4 % 8) = none) :
    configOf (address :: source :: channel :: field :: kind :: a1 :: a0 :: b1 :: b0 :: d :: p :: m :: slot :: rest) 1 = none := by
  unfold configOf
  simp only [operand, Nat.reduceAdd, List.getD_cons_succ, List.getD_cons_zero, bitsOf_eq, pow_zero, Nat.div_one, Nat.reducePow]
  rcases h with h | h
  · rw [h]
  · rw [h]
    cases templateOf (kind.toNat % 4) <;> rfl

/-- The configuration passes the checks of R56 other than those of its codes. -/
theorem configFrom_legal (template : Template) (reaction : Reaction) (ht : templateOf (kind.toNat % 4) = some template) :
    (configFrom source channel field kind a1 a0 b1 b0 d p m slot template reaction).legal = true ↔
      (field.toNat % 64 + (if field.getLsbD 6 = true then 2 else 1) ≤ 48 ∧ 1 ≤ d.toNat ∧ d.toNat ≤ 15 ∧ 1 ≤ m.toNat ∧
        m.toNat ≤ 15 ∧ slot.toNat ≤ 15) ∧
      (kind.toNat % 4 = 0 →
        if field.getLsbD 7 = true then BitVec.toInt (a1 ++ a0 : Word) ≤ BitVec.toInt (b1 ++ b0 : Word)
        else BitVec.toNat (a1 ++ a0 : Word) ≤ BitVec.toNat (b1 ++ b0 : Word)) ∧
      (kind.toNat % 4 = 1 → (b1 ++ b0 : Word) &&& ~~~(a1 ++ a0 : Word) = 0#16) := by
  have hwindow : kind.toNat % 4 = 0 ↔ template = .window := by
    generalize kind.toNat % 4 = n at ht
    rcases n with _ | _ | _ | n <;> simp [templateOf] at ht <;> simp [← ht]
  have hpattern : kind.toNat % 4 = 1 ↔ template = .pattern := by
    generalize kind.toNat % 4 = n at ht
    rcases n with _ | _ | _ | n <;> simp [templateOf] at ht <;> simp [← ht]
  rw [EntryConfig.legal_iff, hwindow, hpattern]
  rfl

end

/-- LOAD ENTRY on entry i (R160): working, or its configuration refused or accepted. -/
theorem reqLoadEntry_eq {ops : List Byte} {s : State} {i : Nat} (h : s.resolve (operand ops 0) = some i) :
    ((s.entry i).working = true → reqLoadEntry ops s = refuse .entryBusy (s.entry i).config.toBytes s) ∧
    ((s.entry i).working = false →
      (configOf ops 1 = none → reqLoadEntry ops s = refuse .badValue (s.entry i).config.toBytes s) ∧
      ∀ c, configOf ops 1 = some c → reqLoadEntry ops s =
        { result := .ok, data := (s.entry i).config.toBytes, state := s.updateEntry i fun _ => Entry.loadedWith c }) := by
  have hreq := withEntry_some (s := s) (f := fun i =>
    let before := (s.entry i).config.toBytes
    if (s.entry i).working then refuse .entryBusy before s
    else
      match configOf ops 1 with
      | none => refuse .badValue before s
      | some c => { result := .ok, data := before, state := s.updateEntry i fun _ => Entry.loadedWith c }) h
  refine ⟨fun hw => hreq.trans (if_pos hw), fun hw => ⟨fun hc => ?_, fun c hc => ?_⟩⟩ <;>
  · refine hreq.trans ((if_neg (by rw [hw]; nofun)).trans ?_)
    rw [hc]

/-- Settles O12: by whether the entry works, then by the checks of R56. -/
theorem loadEntryLoadsACheckedConfiguration : Obligations.LoadEntryLoadsACheckedConfiguration := by
  unfold Obligations.LoadEntryLoadsACheckedConfiguration
  intro target tag address source channel field kind a1 a0 b1 b0 d p m slot rest s i template reaction operands a b offset width
    templateCode reactionCode ranges window pattern c before after ha hres
  have hlen : 13 ≤ operands.length := Nat.le_add_left ..
  have hbefore : (s.entry i).config.toBytes = before := by
    rw [EntryConfig.toBytes_eq, EntryConfig.kindByte_eq, EntryConfig.fieldByte_eq]
    rfl
  have hdata : (s.entry i).config.toBytes.length ≤ operands.length := Nat.le_of_succ_le hlen
  obtain ⟨hbusy, hrest⟩ := reqLoadEntry_eq (ops := operands) (s := after) hres
  refine ⟨fun hs => ?_, fun hs => ?_⟩
  · have hw : (s.entry i).working = true := by rcases hs with hs | hs <;> simp [Entry.working, hs]
    rw [← hbefore]
    exact answered .loadEntry rfl ha hlen (hbusy hw) hdata rfl
  have hw : (s.entry i).working = false := by rcases hs with hs | hs <;> simp [Entry.working, hs]
  obtain ⟨hrefused, haccepted⟩ := hrest hw
  rw [← hbefore]
  refine ⟨fun hbad => ?_, fun ⟨⟨h1, h2, h3, h4, h5, h6, _, _⟩, hwin, hpat⟩ ht hre => ?_⟩
  · refine answered .loadEntry rfl ha hlen (hrefused ?_) hdata rfl
    cases ht : templateOf (kind.toNat % 4) with
    | none => exact configOf_none (.inl ht)
    | some t' =>
      cases hre : reactionOf (kind.toNat / 4 % 8) with
      | none => exact configOf_none (.inr hre)
      | some r' =>
        rw [configOf_some ht hre, if_neg]
        rw [configFrom_legal t' r' ht]
        rintro ⟨⟨h1, h2, h3, h4, h5, h6⟩, hwin, hpat⟩
        exact hbad ⟨⟨h1, h2, h3, h4, h5, h6, templateOf_some ht, reactionOf_some hre⟩, hwin, hpat⟩
  · rw [← templateOf_eq] at ht
    rw [← reactionOf_eq] at hre
    have hlegal := (configFrom_legal (source := source) (channel := channel) (field := field) (a1 := a1) (a0 := a0) (b1 := b1)
      (b0 := b0) (d := d) (p := p) (m := m) (slot := slot) template reaction ht).2 ⟨⟨h1, h2, h3, h4, h5, h6⟩, hwin, hpat⟩
    have hans := answered (tag := tag) .loadEntry rfl ha hlen (haccepted _ ((configOf_some ht hre).trans (if_pos hlegal))) hdata rfl
    rw [State.updateEntry_eq_set] at hans
    exact hans

/-! ### ARM (R58) -/

/-- The check that some other entry stands in the way, for a property of entries in use. -/
theorem State.otherEntry_iff {s : State} {i : Nat} {p : Entry → Bool} (hp : ∀ e, p e = true → e.state ≠ .free) :
    s.otherEntry i p = true ↔ ∃ j, j ≠ i ∧ p (s.entry j) = true := by
  constructor
  · intro h
    obtain ⟨⟨e, j⟩, hmem, hj⟩ := List.any_eq_true.1 h
    rw [Bool.and_eq_true, bne_iff_ne] at hj
    have he : s.entry j = e := by
      rw [State.entry, List.getD_eq_getElem?_getD, List.mk_mem_zipIdx_iff_getElem?.1 hmem]
      rfl
    exact ⟨j, hj.1, he ▸ hj.2⟩
  · rintro ⟨j, hj, hpj⟩
    by_contra hne
    exact State.not_of_otherEntry (Bool.not_eq_true _ ▸ hne) hj (hp _ hpj) hpj

theorem Entry.working_iff (e : Entry) : e.working = true ↔ e.state = .armed ∨ e.state = .trial := by
  simp [Entry.working]

/-- The first check of ARM: another working entry holds the key. -/
theorem State.keyTaken_iff (s : State) (i : Nat) :
    s.keyTaken i = true ↔ ∃ j, j ≠ i ∧ ((s.entry j).state = .armed ∨ (s.entry j).state = .trial) ∧
      (s.entry j).config.source = (s.entry i).config.source ∧ (s.entry j).config.channel = (s.entry i).config.channel := by
  rw [State.keyTaken, State.otherEntry_iff]
  · simp only [Bool.and_eq_true, Entry.working_iff, Entry.hasKey, beq_iff_eq]
  · intro e he
    rw [Bool.and_eq_true, Entry.working_iff] at he
    rcases he.1 with h | h <;> rw [h] <;> nofun

/-- The second check of ARM: another ARMED SUBSTITUTE entry names the slot. -/
theorem State.slotTaken_iff (s : State) (i : Nat) :
    s.slotTaken i = true ↔ (s.entry i).config.reaction = .substitute ∧ ∃ j, j ≠ i ∧ (s.entry j).state = .armed ∧
      (s.entry j).config.reaction = .substitute ∧ (s.entry j).config.slot = (s.entry i).config.slot := by
  rw [State.slotTaken, Bool.and_eq_true, State.otherEntry_iff]
  · simp only [Entry.fillsSlot, Bool.and_eq_true, beq_iff_eq, and_assoc]
  · intro e he
    simp only [Entry.fillsSlot, Bool.and_eq_true, beq_iff_eq] at he
    rw [he.1.1]
    nofun

/-- ARM on entry i, by the entry's state and its two checks (R58). -/
theorem reqArm_byState {ops : List Byte} {s : State} {i : Nat} (h : s.resolve (operand ops 0) = some i) :
    ((s.entry i).state = .free → reqArm ops s = refuseEntry .empty i s) ∧
      ((s.entry i).state = .trial → reqArm ops s = refuseEntry .entryBusy i s) ∧
      ((s.entry i).state = .armed → reqArm ops s = acceptEntry i s) ∧
      ((s.entry i).state = .loaded → reqArm ops s =
        if s.keyTaken i then refuseEntry .keyTaken i s
        else if s.slotTaken i then refuseEntry .slotTaken i s
        else acceptEntry i (s.updateEntry i Entry.arm)) := by
  refine ⟨?_, ?_, ?_, ?_⟩ <;> intro hs <;> simp only [reqArm, withEntry_some h, hs]

/-- Settles O13: by the entry's state, then the key, then the slot. -/
theorem armPutsALoadedEntryToWork : Obligations.ArmPutsALoadedEntryToWork := by
  unfold Obligations.ArmPutsALoadedEntryToWork
  intro target tag address rest s i operands e keyTaken slotTaken after index answers ha hlen hres hi
  obtain ⟨hfree, htrial, harmed, hloaded⟩ := reqArm_byState (ops := operands) (s := after) hres
  have answer {t : State} (result : Result) (st : EntryState)
      (hr : reqArm operands after = { result := result, data := entryReply i t, state := t })
      (hst : (t.entry i).state = st) : answers t (byteOf result.code) (byteOf st.code) :=
    entryAnswered .arm rfl ha hlen hlen hr hst
  have hkey : after.keyTaken i = true ↔ keyTaken := after.keyTaken_iff i
  have hslot : after.slotTaken i = true ↔ slotTaken := after.slotTaken_iff i
  refine ⟨fun hs => ?_, fun hs => ?_, fun hs => ?_, fun hs => ⟨fun hk => ?_, fun hk hc => ?_, fun hk hc => ?_⟩⟩
  · exact answer .empty .free (hfree hs) hs
  · exact answer .entryBusy .trial (htrial hs) hs
  · exact answer .ok .armed (harmed hs) hs
  · exact answer .keyTaken .loaded ((hloaded hs).trans (if_pos (hkey.2 hk))) hs
  · exact answer .slotTaken .loaded ((hloaded hs).trans ((if_neg (mt hkey.1 hk)).trans (if_pos (hslot.2 hc)))) hs
  · have hans := answer .ok .armed ((hloaded hs).trans ((if_neg (mt hkey.1 hk)).trans (if_neg (mt hslot.1 hc))))
      (congrArg Entry.state (after.entry_updateEntry i Entry.arm hi))
    rw [State.updateEntry_eq_set] at hans
    exact hans

/-! ### START TRIAL (R62, R177) -/

/-- The sixth check of START TRIAL: an ARMED entry holds the key. -/
theorem State.keyArmed_iff (s : State) (i : Nat) :
    s.keyArmed i = true ↔ ∃ j, (s.entry j).state = .armed ∧ (s.entry j).config.source = (s.entry i).config.source ∧
      (s.entry j).config.channel = (s.entry i).config.channel := by
  have hp (e : Entry) : (e.state == .armed && e.hasKey (s.entry i).config.source (s.entry i).config.channel) = true ↔
      e.state = .armed ∧ e.config.source = (s.entry i).config.source ∧ e.config.channel = (s.entry i).config.channel := by
    simp only [Bool.and_eq_true, Entry.hasKey, beq_iff_eq]
  rw [State.keyArmed, List.any_eq_true]
  constructor
  · rintro ⟨e, he, h⟩
    obtain ⟨j, hj⟩ := List.getElem?_of_mem he
    have hej : s.entry j = e := by
      rw [State.entry, List.getD_eq_getElem?_getD, hj]
      rfl
    exact ⟨j, hej ▸ (hp e).1 h⟩
  · rintro ⟨j, hj⟩
    refine ⟨s.entry j, ?_, (hp _).2 hj⟩
    exact (s.entry_eq j).resolve_right fun he => by rw [he] at hj; cases hj.1

/-- The part that an accepted START TRIAL leaves (R177). -/
def State.startTrial (i limit : Nat) (s : State) : State :=
  { s with
    table := { s.table with entries := s.table.entries.set i (s.entry i).beginTrial }
    op := { s.op with slot := .trial { entry := i, limit := limit, counted := 0 }, pendingAbort := .none }
    trialStreak := 0 }

/-- START TRIAL on entry i, by the entry's state and the checks in order (R177). -/
theorem reqStartTrial_byState {ops : List Byte} {s : State} {i : Nat} (h : s.resolve (operand ops 0) = some i) :
    ((s.entry i).state = .free → reqStartTrial ops s = refuseEntry .empty i s) ∧
      ((s.entry i).state = .armed → reqStartTrial ops s = refuseEntry .entryBusy i s) ∧
      ((s.entry i).state = .trial → reqStartTrial ops s = refuseEntry .entryBusy i s) ∧
      ((s.entry i).state = .loaded → reqStartTrial ops s =
        if !s.op.slot.isIdle then refuseEntry .partBusy i s
        else if operandNat ops 1 = 0 then refuseEntry .badValue i s
        else if s.keyArmed i then refuseEntry .keyTaken i s
        else if s.reaction.isolated then refuseEntry .isolated i s
        else acceptEntry i (s.startTrial i (operandNat ops 1))) := by
  refine ⟨?_, ?_, ?_, ?_⟩ <;> intro hs <;> simp only [reqStartTrial, withEntry_some h, hs]
  simp only [State.updateEntry_eq_set]
  rfl

/-- Settles O22: by the entry's state, then the slot, the limit, the key and isolation. -/
theorem startTrialPutsAnEntryOnTrial : Obligations.StartTrialPutsAnEntryOnTrial := by
  unfold Obligations.StartTrialPutsAnEntryOnTrial
  intro target tag address limit rest s i operands e keyArmed after answers ha hres hi
  have hlen : 2 ≤ operands.length := Nat.le_add_left ..
  obtain ⟨hfree, harmed, htrial, hloaded⟩ := reqStartTrial_byState (ops := operands) (s := after) hres
  have answer {t : State} (result : Result) (st : EntryState)
      (hr : reqStartTrial operands after = { result := result, data := entryReply i t, state := t })
      (hst : (t.entry i).state = st) : answers t (byteOf result.code) (byteOf st.code) :=
    entryAnswered .startTrial rfl ha hlen hlen hr hst
  have hkey : after.keyArmed i = true ↔ keyArmed := after.keyArmed_iff i
  refine ⟨fun hs => answer .empty .free (hfree hs) hs, fun hs => answer .entryBusy .armed (harmed hs) hs,
    fun hs => answer .entryBusy .trial (htrial hs) hs, fun hs => ?_⟩
  have hreq := hloaded hs
  refine ⟨fun hslot => ?_, fun hslot => ?_⟩
  · have hbusy : (!after.op.slot.isIdle) = true := by
      rw [Bool.not_eq_true', ← Bool.not_eq_true, OperationSlot.isIdle_iff]
      exact hslot
    exact answer .partBusy .loaded (hreq.trans (if_pos hbusy)) hs
  have hidle : ¬ (!after.op.slot.isIdle) = true := by
    rw [Bool.not_eq_true', Bool.not_eq_false, OperationSlot.isIdle_iff]
    exact hslot
  replace hreq := hreq.trans (if_neg hidle)
  refine ⟨fun hlim => answer .badValue .loaded (hreq.trans (if_pos hlim)) hs, fun hlim => ?_⟩
  replace hreq := hreq.trans (if_neg hlim)
  refine ⟨fun hk => answer .keyTaken .loaded (hreq.trans (if_pos (hkey.2 hk))) hs, fun hk => ?_⟩
  replace hreq := hreq.trans (if_neg (mt hkey.1 hk))
  refine ⟨fun hiso => answer .isolated .loaded (hreq.trans (if_pos hiso)) hs, fun hiso => ?_⟩
  have hnot : ¬ after.reaction.isolated = true := by
    show ¬ s.reaction.isolated = true
    rw [hiso]
    nofun
  refine answer .ok .trial (hreq.trans (if_neg hnot)) ?_
  have hentry := after.entry_updateEntry i Entry.beginTrial hi
  rw [State.updateEntry_eq_set] at hentry
  exact congrArg Entry.state hentry

end Sys2Proof.Machine
end

section
/-! PROOF. The requests on the whole part: SET MODE, RELEASE, RESTART, START CAPTURE and ABORT (R37, R120, R165 to R167, R172, R179). -/

namespace Sys2Proof.Machine

/-! ### SET MODE and RELEASE -/

/-- The reply data of SET MODE, by the pending mode (R165). -/
theorem modeReply_eq (s : State) :
    modeReply s =
      match s.link.pendingMode with
      | .none => [byteOf s.link.mode.code, 0#8, 0#8]
      | .observe => [byteOf s.link.mode.code, 1#8, 0#8]
      | .active => [byteOf s.link.mode.code, 2#8, 0#8]
      | .bypass h => [byteOf s.link.mode.code, 3#8, byteOf h] := by
  unfold modeReply
  cases s.link.pendingMode <;> rfl

/-- SET MODE BYPASS, by its checks in order (R165). -/
theorem reqSetMode_bypass (held : Byte) (rest : List Byte) (s : State) :
    reqSetMode (3#8 :: held :: rest) s =
      if s.link.mode = .active ∨ s.reaction.isolated = true then refuse .modeOrder (modeReply s) s
      else if s.op.slot ≠ .idle then refuse .partBusy (modeReply s) s
      else acceptMode (.bypass held.toNat) s := by
  show (if (s.link.mode == .active) = true then _ else _) = _
  have hslot : (!s.op.slot.isIdle) = true ↔ s.op.slot ≠ .idle := by
    rw [Bool.not_eq_true', ← Bool.not_eq_true, OperationSlot.isIdle_iff]
  by_cases hm : s.link.mode = .active
  · rw [if_pos (beq_iff_eq.2 hm), if_pos (.inl hm)]
  by_cases hi : s.reaction.isolated = true
  · rw [if_neg (mt beq_iff_eq.1 hm), if_pos hi, if_pos (.inr hi)]
  · rw [if_neg (mt beq_iff_eq.1 hm), if_neg hi, if_neg (not_or.2 ⟨hm, hi⟩)]
    simp only [hslot]
    rfl

/-- Settles O17: OBSERVE and ACTIVE at once, BYPASS by its checks in order. -/
theorem setModeStoresThePendingMode : Obligations.SetModeStoresThePendingMode := by
  unfold Obligations.SetModeStoresThePendingMode
  intro target tag held rest s operands after force stored kept ha hlen
  have hmin (mode : Byte) : 3 ≤ (operands mode).length := Nat.succ_le_succ (Nat.succ_le_succ hlen)
  have hforce : byteOf s.link.mode.code = force := by
    show _ = (match s.link.mode with | .observe => 1#8 | .active => 2#8)
    cases s.link.mode <;> rfl
  have hkept : modeReply s = kept := by
    rw [modeReply_eq, hforce]
    rfl
  refine ⟨?_, ?_, ?_⟩
  · rw [← hforce]
    exact answered (operands := operands 1#8) .setMode rfl ha (hmin 1#8) rfl (hmin 1#8) rfl
  · rw [← hforce]
    exact answered (operands := operands 2#8) .setMode rfl ha (hmin 2#8) rfl (hmin 2#8) rfl
  have hreq := reqSetMode_bypass held rest (after 3#8)
  by_cases h1 : s.link.mode = .active ∨ s.reaction.isolated = true
  · rw [if_pos h1, ← hkept]
    exact answered (operands := operands 3#8) .setMode rfl ha (hmin 3#8) (hreq.trans (if_pos h1)) (hmin 3#8) rfl
  rw [if_neg h1]
  replace hreq := hreq.trans (if_neg h1)
  by_cases h2 : s.op.slot ≠ .idle
  · rw [if_pos h2, ← hkept]
    exact answered (operands := operands 3#8) .setMode rfl ha (hmin 3#8) (hreq.trans (if_pos h2)) (hmin 3#8) rfl
  · rw [if_neg h2]
    refine answered (operands := operands 3#8) .setMode rfl ha (hmin 3#8) (hreq.trans (if_neg h2)) (hmin 3#8) ?_
    have hheld : [byteOf s.link.mode.code, 3#8, byteOf held.toNat] = [force, 3#8, held] := by rw [hforce, byteOf_byte]
    rw [← hheld]
    rfl

/-- The end of isolation, with the line in the words of the statements (R129, R132). -/
theorem State.endIsolation_eq (s : State) :
    s.endIsolation =
      { s with
        reaction := { s.reaction with isolated := false }
        alert := { s.alert with
          flags := { s.alert.flags with isol := false }
          alertn := reaches { s.alert.flags with isol := false } s.alert.levels s.alert.threshold } } := by
  rw [State.endIsolation, State.clearFactor, AlertUnit.clear, AlertUnit.settle, AlertUnit.asserts_eq]
  rfl

/-- Settles O18: by whether isolation is in force. -/
theorem releaseEndsIsolation : Obligations.ReleaseEndsIsolation := by
  unfold Obligations.ReleaseEndsIsolation
  intro target tag operands s after flags ha hlen
  have hreq : RequestKind.release.carryOut operands after =
      { result := .ok, data := [flagByte s.reaction.isolated], state := if s.reaction.isolated then after.endIsolation else after } := rfl
  by_cases hi : s.reaction.isolated = true
  · rw [if_pos hi]
    rw [if_pos hi, hi, State.endIsolation_eq] at hreq
    exact answered .release rfl ha hlen hreq hlen rfl
  · rw [if_neg hi]
    rw [if_neg hi, Bool.eq_false_iff.2 hi] at hreq
    exact answered .release rfl ha hlen hreq hlen rfl

/-! ### RESTART -/

/-- The alerts and the queue after a restart (R145). -/
theorem State.restartAlerts_eq (s : State) :
    s.restartAlerts =
      { s with
        alert := { s.alert with flags := AlertUnit.reset.flags, noticeWaiting := false, alertn := false }
        queue := { s.queue with items := [] } } := by
  rw [State.restartAlerts, AlertUnit.settle, AlertUnit.asserts_none (a := { s.alert with flags := noFlags, noticeWaiting := false }) rfl]
  rfl

/-- RESTART WARM of an entry, in the words of the statements (R67). -/
theorem Entry.restartWarm_eq (e : Entry) :
    e.restartWarm =
      if e.state = .armed then
        { e with
          live := { e.live with
            condition := .conforming, recovered := false, run := 0, timing := .fresh, since := 0, miss := 0 } }
      else e := by
  simp only [Entry.restartWarm, beq_iff_eq]

/-- Settles O19: the parts of a restart one after the other. -/
theorem restartStartsThePartAfresh : Obligations.RestartStartsThePartAfresh := by
  unfold Obligations.RestartStartsThePartAfresh
  intro target tag rest s after afresh restarted ha
  have hlen (scope : Byte) : 1 ≤ (scope :: rest).length := Nat.succ_pos _
  have hafresh : Entry.restartWarm = afresh := funext Entry.restartWarm_eq
  refine ⟨?_, ?_⟩
  · refine answered (operands := 0#8 :: rest) .restart rfl ha (hlen 0#8) rfl (hlen 0#8) ?_
    show State.replied target tag (0#8 :: rest) 0#8 [0#8] (after 0#8).restartWarm = _
    rw [State.restartWarm, State.restartAlerts_eq, State.endIsolation_eq, State.closeOperation_eq, hafresh]
    rfl
  · refine answered (operands := 1#8 :: rest) .restart rfl ha (hlen 1#8) rfl (hlen 1#8) ?_
    show State.replied target tag (1#8 :: rest) 0#8 [1#8] (after 1#8).restartTable = _
    rw [State.restartTable, State.restartAlerts_eq, State.endIsolation_eq, State.closeOperation_eq]
    rfl

/-! ### START CAPTURE -/

/-- The number of bytes held, as two bytes. -/
theorem fifoCount_eq (s : State) : fifoCount s = [byteOf (s.op.fifo.length / 256), byteOf s.op.fifo.length] := by
  rw [fifoCount, wordBytes, highByte_ofNat, lowByte_ofNat]
  rfl

/-- START CAPTURE, by its three checks in order (R172). -/
theorem reqStartCapture_eq (source channel flags k limit : Byte) (rest : List Byte) (s : State) :
    reqStartCapture (source :: channel :: flags :: k :: limit :: rest) s =
      if s.op.slot ≠ .idle then refuse .partBusy (fifoCount s) s
      else if k.toNat = 0 ∨ 32 < k.toNat ∨ limit.toNat = 0 then refuse .badValue (fifoCount s) s
      else if s.op.fifo.length ≠ 0 ∧ flags.getLsbD 1 = false then refuse .unread (fifoCount s) s
      else
        { result := .ok
          data := [byteOf ((if flags.getLsbD 1 = true then 0 else s.op.fifo.length) / 256),
            byteOf (if flags.getLsbD 1 = true then 0 else s.op.fifo.length)]
          state := { s with
            op := { s.op with
              slot := .capture (captureOf (source :: channel :: flags :: k :: limit :: rest)), pendingAbort := .none
              fifo := if flags.getLsbD 1 = true then [] else s.op.fifo } } } := by
  have hslot : (!s.op.slot.isIdle) = true ↔ s.op.slot ≠ .idle := by
    rw [Bool.not_eq_true', ← Bool.not_eq_true, OperationSlot.isIdle_iff]
  have hunread : (!s.op.fifo.isEmpty && !flags.getLsbD 1) = true ↔ s.op.fifo.length ≠ 0 ∧ flags.getLsbD 1 = false := by
    simp
  have hcount : (if flags.getLsbD 1 = true then [] else s.op.fifo).length = if flags.getLsbD 1 = true then 0 else s.op.fifo.length := by
    split <;> rfl
  have hdiscard : (operand (source :: channel :: flags :: k :: limit :: rest) 2).getLsbD 1 = flags.getLsbD 1 := rfl
  simp only [reqStartCapture, hslot, hdiscard, hunread, fifoCount_eq, hcount]
  rfl

/-- Settles O20, by the three checks in order. -/
theorem startCaptureStartsACapture : Obligations.StartCaptureStartsACapture := by
  unfold Obligations.StartCaptureStartsACapture
  intro target tag source channel flags k limit rest s operands after discard held count ha
  have hlen : 5 ≤ operands.length := Nat.le_add_left ..
  have hlen2 : 2 ≤ operands.length := Nat.le_add_left ..
  have hreq := reqStartCapture_eq source channel flags k limit rest after
  rw [fifoCount_eq] at hreq
  by_cases h1 : s.op.slot ≠ .idle
  · rw [if_pos h1]
    exact answered .startCapture rfl ha hlen (hreq.trans (if_pos h1)) hlen2 rfl
  rw [if_neg h1]
  replace hreq := hreq.trans (if_neg h1)
  by_cases h2 : k.toNat = 0 ∨ 32 < k.toNat ∨ limit.toNat = 0
  · rw [if_pos h2]
    exact answered .startCapture rfl ha hlen (hreq.trans (if_pos h2)) hlen2 rfl
  rw [if_neg h2]
  replace hreq := hreq.trans (if_neg h2)
  by_cases h3 : count ≠ 0 ∧ discard = false
  · rw [if_pos h3]
    exact answered .startCapture rfl ha hlen (hreq.trans (if_pos h3)) hlen2 rfl
  · rw [if_neg h3]
    exact answered .startCapture rfl ha hlen (hreq.trans (if_neg h3)) hlen2 rfl

/-! ### ABORT -/

/-- The code of the operation slot (R179). -/
theorem OperationSlot.code_byte (o : OperationSlot) :
    byteOf o.code = match o with | .idle => 0#8 | .capture _ => 1#8 | .trial _ => 2#8 := by
  cases o <;> rfl

/-- The pending abort's code (R179). -/
theorem PendingAbort.code_byte (p : PendingAbort) :
    byteOf p.code = match p with | .none => 0#8 | .atTrip => 3#8 | .atTrain => 4#8 := by
  cases p <;> rfl

/-- No operation, nothing to end. -/
theorem State.closeOperation_idle {s : State} (h : s.op.slot = .idle) (cause : EndCause) (how : TrialLeave) :
    s.closeOperation cause how = s := by
  unfold State.closeOperation
  rw [h]

/-- The OPDONE flag cleared, with the line in the words of the statements (R130, R132). -/
theorem State.clearOpdone_eq (s : State) :
    s.clearFactor .opdone =
      { s with
        alert := { s.alert with
          flags := { s.alert.flags with opdone := false }
          alertn := reaches { s.alert.flags with opdone := false } s.alert.levels s.alert.threshold } } := by
  rw [State.clearFactor, AlertUnit.clear, AlertUnit.settle, AlertUnit.asserts_eq]
  rfl

/-- ABORT QUIET ends a running operation without OPDONE, and clears the flag (R130, R179). -/
theorem State.abortQuietly_running {s : State} (h : s.op.slot ≠ .idle) :
    s.abortQuietly = (s.operationEnded .aborted keptIncomplete).clearFactor .opdone := by
  rw [State.abortQuietly, State.closeOperation_eq, if_neg h]
  rfl

/-- Settles O23: by what runs in the slot. -/
theorem abortNowAndQuietEndTheOperation : Obligations.AbortNowAndQuietEndTheOperation := by
  unfold Obligations.AbortNowAndQuietEndTheOperation
  intro target tag rest s after flags cleared ended now quiet stopped ha hlen
  have hmin (condition : Byte) : 3 ≤ (condition :: rest).length := Nat.succ_le_succ hlen
  have hnow {t : State} {data : List Byte} (ht : (after 1#8).abortOperation = t) (hd : abortReply s t = data) : now t data := by
    subst ht hd
    exact answered (operands := 1#8 :: rest) .abort rfl ha (hmin 1#8) rfl (hmin 1#8) rfl
  have hquiet {t : State} {data : List Byte} (ht : (after 2#8).abortQuietly = t) (hd : abortReply s t = data) : quiet t data := by
    subst ht hd
    exact answered (operands := 2#8 :: rest) .abort rfl ha (hmin 2#8) rfl (hmin 2#8) rfl
  have running (hs : s.op.slot ≠ .idle) :
      now stopped [byteOf s.op.slot.code, 0#8, 0#8] ∧ quiet (ended cleared) [byteOf s.op.slot.code, 0#8, 0#8] := by
    have hs1 : (after 1#8).op.slot ≠ .idle := hs
    have hs2 : (after 2#8).op.slot ≠ .idle := hs
    refine ⟨hnow ?_ rfl, hquiet ?_ rfl⟩
    · rw [State.abortOperation_eq, if_neg hs1]
      rfl
    · rw [State.abortQuietly_running hs2, State.clearOpdone_eq]
      rfl
  refine ⟨fun c hc => ?_, fun t ht => ?_, fun hs hp => ?_⟩
  · have hr := running (by rw [hc]; nofun)
    rwa [hc] at hr
  · have hr := running (by rw [ht]; nofun)
    rwa [ht] at hr
  · have hs1 : (after 1#8).op.slot = .idle := hs
    have hs2 : (after 2#8).op.slot = .idle := hs
    have hreply : [byteOf s.op.slot.code, byteOf s.op.slot.code, byteOf s.op.pendingAbort.code] = [0#8, 0#8, 0#8] := by
      rw [hs, hp]
      rfl
    refine ⟨hnow ?_ hreply, hquiet ?_ hreply⟩
    · rw [State.abortOperation_eq, if_pos hs1]
    · rw [State.abortQuietly, State.closeOperation_idle hs2, State.clearOpdone_eq]
      rfl

/-- Settles O24: by whether an operation runs. -/
theorem abortAtStoresThePendingAbort : Obligations.AbortAtStoresThePendingAbort := by
  unfold Obligations.AbortAtStoresThePendingAbort
  intro target tag rest s code stored ha hlen hidle
  have hmin (condition : Byte) : 3 ≤ (condition :: rest).length := Nat.succ_le_succ hlen
  have hcode : byteOf s.op.slot.code = code := s.op.slot.code_byte
  have hstored (condition : Byte) (p : PendingAbort) (hp : byteOf p.code = condition) :
      (acceptAbort s ((s.afterRequest target tag 20#8 (condition :: rest)).storeAbort p)).state.replied target tag (condition :: rest)
        0#8 (abortReply s ((s.afterRequest target tag 20#8 (condition :: rest)).storeAbort p)) = stored condition p := by
    by_cases hs : s.op.slot = .idle
    · have hkept : (s.afterRequest target tag 20#8 (condition :: rest)).storeAbort p = s.afterRequest target tag 20#8 (condition :: rest) :=
        if_pos (OperationSlot.isIdle_iff.2 hs)
      have hreply : abortReply s (s.afterRequest target tag 20#8 (condition :: rest)) = [code, code, 0#8] := by
        show [byteOf s.op.slot.code, byteOf s.op.slot.code, byteOf s.op.pendingAbort.code] = _
        rw [hcode, hidle hs]
        rfl
      rw [hkept, hreply]
      exact (if_pos hs).symm
    · have hkept : (s.afterRequest target tag 20#8 (condition :: rest)).storeAbort p = _ :=
        if_neg (mt OperationSlot.isIdle_iff.1 hs)
      rw [hkept, ← hp]
      have hreply (u : State) (hu : u.op = { s.op with pendingAbort := p }) : abortReply s u = [code, code, byteOf p.code] := by
        rw [abortReply, hu, hcode]
      rw [hreply _ rfl]
      exact (if_neg hs).symm
  exact ⟨answered (operands := 3#8 :: rest) .abort rfl ha (hmin 3#8) rfl (hmin 3#8) (hstored 3#8 .atTrip rfl),
    answered (operands := 4#8 :: rest) .abort rfl ha (hmin 4#8) rfl (hmin 4#8) (hstored 4#8 .atTrain rfl)⟩

end Sys2Proof.Machine
end

section
/-! PROOF. Requests that are refused, broadcast, not taken, or answered at the train's limit (R21, R146 to R151, R165, R167, R179). -/

namespace Sys2Proof.Machine

/-! ### A train end in the path -/

/-- In the path the Link Controller's part of a train end is the pending mode (R38). -/
theorem State.linkTrainEnd_inPath {l : LinkState} (h : l.inPath = true) (byTe clean : Bool) (s : State) :
    s.linkTrainEnd l byTe clean = s.applyPendingMode := by
  cases l
  case inline | leaveWait => rfl
  all_goals cases h

/-- A train end in the path: the blocks' part, the pending mode applied, the train's marks and the Framer cleared (R21, R38). -/
theorem State.trainEnd_inPath {s : State} (h : s.inPath = true) (byTe : Bool) :
    s.trainEnd byTe = { s.trainEndInPath.applyPendingMode.clearTrainMarks with framer := s.framer.closed } := by
  unfold State.trainEnd
  dsimp only
  rw [if_pos h, State.linkTrainEnd_inPath h]
  simp

theorem State.trainEnd_inPath_delay {s : State} (h : s.inPath = true) (byTe : Bool) : (s.trainEnd byTe).delay = s.delay := by
  rw [State.trainEnd_inPath h]
  simp

theorem State.endTrain_inPath_delay {s : State} (h : s.inPath = true) (byTe : Bool) : (s.endTrain byTe).delay = s.delay := by
  unfold State.endTrain
  dsimp only
  repeat' split
  · exact State.trainEnd_inPath_delay h _
  · rw [State.trainEnd_inPath_delay (by simpa [State.inPath] using h)]
    simp
  · rw [State.trainEnd_inPath_delay (by simpa [State.inPath] using h)]
    simp

/-! ### Refusals -/

/-- An addressed request whose response refuses it is answered so, and changes nothing else (R150). -/
theorem refused {c : Instr} {q : Request} {s : State} (hq : requestOf c = some q) (ha : s.addressed q.target q.operands)
    {result : Result} {data : List Byte}
    (hr : respond q.code q.operands (s.afterRecord q.wire) = refuse result data (s.afterRecord q.wire))
    (hd : data.length ≤ q.operands.length) :
    exec c s = .next ((s.afterRecord q.wire).replied q.target q.tag q.operands (byteOf result.code) data) :=
  (exec_request hq).trans (congrArg Host.Outcome.next (State.arriveRequest_addressed ha hr hd))

/-- A code of 1 to 20 names a request, whose minimum length is the table's. -/
theorem requestKind_some {code : Byte} (h : 1 ≤ code.toNat ∧ code.toNat ≤ 20) :
    ∃ k, requestKind code = some k ∧ k.minimum = minimumLength code := by
  have hmin := requestKind_minimum code
  rw [if_neg (by omega)] at hmin
  obtain ⟨k, hk, hm⟩ := Option.map_eq_some_iff.1 hmin
  exact ⟨k, hk, hm⟩

/-- An address that names no entry: BAD-ADDRESS (R65). -/
theorem withEntry_none {ops : List Byte} {s : State} {f : Nat → Response} (h : s.resolve (operand ops 0) = none) :
    withEntry ops s f = refuse .badAddress [] s := by
  rw [withEntry, h]

/-- The six requests on an entry, and CLEAR ALERTS with scope 1, refuse an address that names no entry (R65, R158). -/
theorem respond_badAddress {code : Byte} {ops : List Byte} {s : State} (hlen : minimumLength code ≤ ops.length)
    (h : (code ∈ [7#8, 8#8, 9#8, 10#8, 11#8, 19#8] ∧ s.resolve (operand ops 0) = none) ∨
      (code = 4#8 ∧ operand ops 1 = 1#8 ∧ s.resolve (operand ops 2) = none)) :
    respond code ops s = refuse .badAddress [] s := by
  rcases h with ⟨hcode, hres⟩ | ⟨rfl, hscope, hres⟩
  · simp only [List.mem_cons, List.not_mem_nil, or_false] at hcode
    rcases hcode with rfl | rfl | rfl | rfl | rfl | rfl
    · exact (respond_carryOut .readEntry rfl hlen s).trans (withEntry_none hres)
    · exact (respond_carryOut .loadEntry rfl hlen s).trans (withEntry_none hres)
    · exact (respond_carryOut .arm rfl hlen s).trans (withEntry_none hres)
    · exact (respond_carryOut .disarm rfl hlen s).trans (withEntry_none hres)
    · exact (respond_carryOut .free rfl hlen s).trans (withEntry_none hres)
    · exact (respond_carryOut .startTrial rfl hlen s).trans (withEntry_none hres)
  · refine (respond_carryOut .clearAlerts rfl hlen s).trans ?_
    have hone : operandNat ops 1 = 1 := by rw [operandNat, hscope]; rfl
    simp only [RequestKind.carryOut, reqClearAlerts, hone]
    rw [hres]

/-- SET MODE with a mode that is not coded (R165). -/
theorem reqSetMode_badValue {ops : List Byte} (h : operandNat ops 0 = 0 ∨ 3 < operandNat ops 0) (s : State) :
    reqSetMode ops s = refuse .badValue (modeReply s) s := by
  unfold reqSetMode
  split
  · omega
  · omega
  · omega
  · rfl

/-- RESTART with a scope that is not coded (R167). -/
theorem reqRestart_badValue {ops : List Byte} (h : 1 < operandNat ops 0) (s : State) :
    reqRestart ops s = refuse .badValue [operand ops 0] s := by
  unfold operandNat at h
  unfold reqRestart
  dsimp only
  split
  · omega
  · omega
  · rfl

/-- ABORT with a condition that is not coded (R179). -/
theorem reqAbort_badValue {ops : List Byte} (h : operandNat ops 0 = 0 ∨ 4 < operandNat ops 0) (s : State) :
    reqAbort ops s = refuse .badValue (abortReply s s) s := by
  unfold reqAbort
  split
  · omega
  · omega
  · omega
  · omega
  · rfl

theorem Mode.code_byte (m : Mode) : byteOf m.code = match m with | .observe => 1#8 | .active => 2#8 := by cases m <;> rfl

theorem PendingMode.code_byte (m : PendingMode) :
    byteOf m.code = match m with | .none => 0#8 | .observe => 1#8 | .active => 2#8 | .bypass _ => 3#8 := by
  cases m <;> rfl

theorem PendingMode.held_byte (m : PendingMode) :
    byteOf m.held = match m with | .bypass h => BitVec.ofNat 8 h | _ => 0#8 := by
  cases m <;> rfl

/-- Settles O25: by the code, the length, and then each request's own refusal. -/
theorem aRefusedRequestChangesNothing : Obligations.ARefusedRequestChangesNothing := by
  unfold Obligations.ARefusedRequestChangesNothing
  intro c q s hq ha answers known first slot
  have answer (result : Result) {data : List Byte}
      (hr : respond q.code q.operands (s.afterRecord q.wire) = refuse result data (s.afterRecord q.wire))
      (hd : data.length ≤ q.operands.length) : answers (byteOf result.code) data := refused hq ha hr hd
  refine ⟨fun hk => ?_, fun hk hlen => ?_, fun hlen => ⟨fun hres => ?_, fun hcode hval => ?_, fun hcode hval => ?_, fun hcode hval => ?_⟩⟩
  · exact answer .badCode (by rw [respond, requestKind_none hk]) (Nat.zero_le _)
  · obtain ⟨k, hkind, hmin⟩ := requestKind_some hk
    refine answer .badLength ?_ (Nat.zero_le _)
    rw [respond, hkind]
    exact if_pos (hmin ▸ hlen)
  · exact answer .badAddress (respond_badAddress hlen hres) (Nat.zero_le _)
  · rw [hcode] at hlen
    have hans := answer .badValue (data := modeReply s) (by
      rw [hcode]
      exact (respond_carryOut .setMode rfl hlen _).trans (reqSetMode_badValue hval _)) hlen
    rw [modeReply, Mode.code_byte, PendingMode.code_byte, PendingMode.held_byte] at hans
    exact hans
  · rw [hcode] at hlen
    refine answer .badValue ?_ hlen
    rw [hcode]
    exact (respond_carryOut .restart rfl hlen _).trans (reqRestart_badValue hval _)
  · rw [hcode] at hlen
    have hans := answer .badValue (data := abortReply s s) (by
      rw [hcode]
      exact (respond_carryOut .abort rfl hlen _).trans (reqAbort_badValue hval _)) hlen
    rw [abortReply, OperationSlot.code_byte, PendingAbort.code_byte] at hans
    exact hans

/-! ### Broadcasts and requests not taken (R146, R147) -/

/-- The five requests that may be broadcast, and no others (R147). -/
theorem broadcast_iff (code : Byte) :
    code ∈ broadcastCodes ↔ ∃ k, requestKind code = some k ∧ k.mayBroadcast = true := by
  have hk : code ∈ broadcastCodes ↔ ((requestKind code).map RequestKind.mayBroadcast) = some true := by
    revert code
    decide
  rw [hk, Option.map_eq_some_iff]

/-- A broadcast of the five leaves what the response leaves. -/
theorem State.takeBroadcast_taken {q : Request} (h : q.code ∈ broadcastCodes) (s : State) :
    s.takeBroadcast q = (respond q.code q.operands s).state := by
  obtain ⟨k, hk, hb⟩ := (broadcast_iff q.code).1 h
  unfold State.takeBroadcast respond
  rw [hk]
  exact if_pos hb

/-- A broadcast of any other code is ignored. -/
theorem State.takeBroadcast_ignored {q : Request} (h : q.code ∉ broadcastCodes) (s : State) : s.takeBroadcast q = s := by
  unfold State.takeBroadcast
  cases hk : requestKind q.code with
  | none => rfl
  | some k => exact if_neg fun hb => h ((broadcast_iff q.code).2 ⟨k, hk, hb⟩)

theorem target_toNat_ne {target : Byte} (h : target ≠ 0#8) : target.toNat ≠ 0 :=
  fun h0 => h (BitVec.eq_of_toNat_eq h0)

/-- Settles O27: a response looks at no place of the stream, so both forms leave the same part but for the reply. -/
theorem aBroadcastIsExecutedWithoutAReply : Obligations.ABroadcastIsExecutedWithoutAReply := by
  unfold Obligations.ABroadcastIsExecutedWithoutAReply
  intro c b q s t hc hb hcode hne hready hL hexec
  have hready' : State.readyFor (q.operands.length + 7) { s with position := some q.target.toNat } := hready
  rw [exec_request hc, State.arriveRequest_ready hready' hL, 
    State.completeRequest_taken (s := State.afterRecord q.wire { s with position := some q.target.toNat }) hready'.2.1
      (target_toNat_ne hne) rfl] at hexec
  rw [exec_request hb, State.arriveRequest_ready (q := { q with target := 0#8 }) hready hL,
    State.completeRequest_broadcast (s := s.afterRecord (Request.wire { q with target := 0#8 })) hready.2.1 rfl,
    State.takeBroadcast_taken (q := { q with target := 0#8 }) hcode]
  obtain rfl := Host.Outcome.next.inj hexec
  have hsym : q.wire.symbols.length = (Request.wire { q with target := 0#8 }).symbols.length := by
    rw [WireRecord.symbols_length, WireRecord.symbols_length]
    rfl
  have hmoved : State.afterRecord q.wire { s with position := some q.target.toNat } =
      (s.afterRecord (Request.wire { q with target := 0#8 })).moved (some q.target.toNat) (s.afterRecord q.wire).delay
        (s.afterRecord (Request.wire { q with target := 0#8 })).framer.symbolCount := by
    simp only [State.afterRecord, State.moved, hsym]
  refine congrArg Host.Outcome.next ?_
  simp only [State.answer, hmoved, respond_moved]
  generalize hx : s.afterRecord (Request.wire { q with target := 0#8 }) = x
  have hpos : x.position = s.position := by rw [← hx]; rfl
  obtain ⟨-, -, -, -, hframer, hposition, hdelay, -⟩ := respond_frame q.code q.operands x
  generalize respond q.code q.operands x = r at hframer hposition hdelay
  obtain ⟨result, data, u⟩ := r
  simp only [Response.moved, State.moved, State.rewriteRecord, ← hframer, ← hdelay, ← hpos, ← hposition]

/-- Settles O28: a broadcast that is not one of the five, and a target that is not the part's position. -/
theorem aRequestNotTakenPasses : Obligations.ARequestNotTakenPasses := by
  unfold Obligations.ARequestNotTakenPasses
  intro c q s hc hready hL h
  rw [exec_request hc, State.arriveRequest_ready hready hL]
  refine congrArg Host.Outcome.next ?_
  have hi : (s.afterRecord q.wire).inPath = true := hready.2.1
  rcases h with ⟨h0, hcode⟩ | ⟨hne, hpos⟩
  · rw [State.completeRequest_broadcast hi (by rw [h0]; rfl), State.takeBroadcast_ignored hcode]
  · have hpos' : (s.afterRecord q.wire).position ≠ some q.target.toNat := hpos
    unfold State.completeRequest
    rw [if_pos hi, if_neg (target_toNat_ne hne)]
    cases hp : (s.afterRecord q.wire).position with
    | none => rfl
    | some p => exact if_neg fun he => hpos' (by rw [hp, he])

/-! ### A request at the limit (R21, R148) -/

/-- A reply's mark stands in the Delay Line, which therefore does not hold FILL alone. -/
theorem State.answer_delay_ne_fill (p : Nat) (q : Request) (s : State) : (s.answer p q).delay ≠ fillDelay := by
  intro h
  have hmem : Symbol.ma ∈ (s.answer p q).delay := by
    simp [State.answer, State.rewriteRecord, overwriteNewest, WireRecord.symbols, replyRecord, RecordKind.mark]
  rw [h] at hmem
  cases List.eq_of_mem_replicate hmem

/-- The answer of a part at another symbol count. -/
theorem State.answer_recount (p n : Nat) (q : Request) (s : State) :
    State.answer p q { s with framer := { s.framer with symbolCount := n } } =
      { s.answer p q with framer := { (s.answer p q).framer with symbolCount := n } } := by
  have hmoved := respond_moved s.position s.delay n q.code q.operands s
  obtain ⟨-, -, -, -, hframer, hposition, hdelay, -⟩ := respond_frame q.code q.operands s
  unfold State.answer
  rw [show ({ s with framer := { s.framer with symbolCount := n } } : State) = s.moved s.position s.delay n from rfl, hmoved]
  simp only [Response.moved, State.moved, State.rewriteRecord, replyRecord, ← hposition, ← hdelay]

/-- Settles O29: the request is answered as below the limit, and the limit is looked at after it. -/
theorem aRequestAtTheLimitIsAnsweredBeforeTheBreak : Obligations.ARequestAtTheLimitIsAnsweredBeforeTheBreak := by
  unfold Obligations.ARequestAtTheLimitIsAnsweredBeforeTheBreak
  intro c q s u hc ha hexec
  obtain ⟨hready, hL, hne, hpos⟩ := ha
  rw [exec_request hc, State.arriveRequest_ready hready hL, 
    State.completeRequest_taken (s := s.afterRecord q.wire) hready.2.1 (target_toNat_ne hne) hpos] at hexec
  obtain rfl := Host.Outcome.next.inj hexec
  have hL48 : q.operands.length ≤ 48 := hL
  have hlate : State.readyFor (q.operands.length + 6)
      { s with framer := { s.framer with symbolCount := 2048 - (q.operands.length + 7) } } := by
    obtain ⟨hr, hi, hd, hp, hl, -⟩ := hready
    refine ⟨hr, hi, hd, hp, hl, ?_⟩
    show 2048 - (q.operands.length + 7) + (q.operands.length + 6) < 2048
    omega
  have hafter : State.afterRecord q.wire { s with framer := { s.framer with symbolCount := 2048 - (q.operands.length + 7) } } =
      { s.afterRecord q.wire with framer := { (s.afterRecord q.wire).framer with symbolCount := 2048 } } := by
    have hcount : 2048 - (q.operands.length + 7) + q.wire.symbols.length = 2048 := by
      rw [WireRecord.symbols_length]
      show 2048 - (q.operands.length + 7) + (q.operands.length + 7) = 2048
      omega
    simp only [State.afterRecord, hcount]
  have hi : (s.afterRecord q.wire).inPath = true := hready.2.1
  rw [exec_request hc, State.arriveRequest_upTo hlate hL, hafter,
    State.completeRequest_taken
      (s := { s.afterRecord q.wire with framer := { (s.afterRecord q.wire).framer with symbolCount := 2048 } })
      hi (target_toNat_ne hne) hpos, State.answer_recount]
  generalize ht : (s.afterRecord q.wire).answer q.target.toNat q = t
  have hframer : t.framer = (s.afterRecord q.wire).framer := by rw [← ht]; simp
  have hstate : t.link.state = s.link.state := by rw [← ht]; simp [State.afterRecord]
  have hbody : t.framer.position = .body := by rw [hframer]; exact hready.2.2.2.1
  have hfill : t.delay ≠ fillDelay := ht ▸ State.answer_delay_ne_fill _ _ _
  have hpath : State.inPath { t with framer := { t.framer with symbolCount := 2048 } } = true := by
    show t.link.state.inPath = true
    rw [hstate]
    exact hready.2.1
  have hlimit : State.limitIfDue { t with framer := { t.framer with symbolCount := 2048 } } =
      State.endTrain false { t with framer := { t.framer with symbolCount := 2048 } } := by
    unfold State.limitIfDue State.limitBreak
    rw [if_pos]
    · simp only [hbody]
    · rw [Bool.and_eq_true, Framer.trainOpen_iff]
      exact ⟨by simp [hbody], rfl⟩
  rw [hlimit, State.leaveIfDue_none]
  refine .inr (.inr ?_)
  rw [State.endTrain_inPath_delay hpath]
  exact hfill

end Sys2Proof.Machine
end

section
/-! PROOF. Commands, supply and time: every command answers, a reset sets every block, symbol times without an arrival, and the loss of
signal (R23, R27, R33, R34). -/

namespace Sys2Proof.Machine

/-! ### Every command answers -/

/-- The four commands of the supply and the pins. -/
def ofSupply : Instr → Bool
  | .powerOn .. => true
  | .resetnAssert => true
  | .resetnRelease .. => true
  | .powerLoss => true
  | _ => false

/-- What a command apart from those of the supply leaves: the supply, the pin, the commands that wait; and of a part that does not run all
but what leaves at DN. -/
structure State.KeepsSupply (s t : State) : Prop where
  powered : t.powered = s.powered
  resetnHigh : t.resetnHigh = s.resetnHigh
  pending : t.pending = s.pending
  passive : s.running = false → ∃ xs, t = { s with dn := xs }

theorem State.KeepsSupply.refl (s : State) : s.KeepsSupply s := ⟨rfl, rfl, rfl, fun _ => ⟨s.dn, rfl⟩⟩

theorem State.KeepsSupply.quiet (s : State) : s.KeepsSupply s.quiet := ⟨rfl, rfl, rfl, fun _ => ⟨[], rfl⟩⟩

theorem State.KeepsSupply.trans {s t u : State} (h : s.KeepsSupply t) (h' : t.KeepsSupply u) : s.KeepsSupply u where
  powered := h'.powered.trans h.powered
  resetnHigh := h'.resetnHigh.trans h.resetnHigh
  pending := h'.pending.trans h.pending
  passive hr := by
    obtain ⟨xs, rfl⟩ := h.passive hr
    obtain ⟨ys, rfl⟩ := h'.passive hr
    exact ⟨ys, rfl⟩

theorem State.KeepsSupply.arrive (s : State) (x : LineSymbol) : s.KeepsSupply (s.arrive x) where
  powered := by simp
  resetnHigh := by simp
  pending := by simp
  passive hr := ⟨s.dn ++ [x], by rw [State.arrive, if_neg (by rw [hr]; nofun)]; rfl⟩

theorem State.KeepsSupply.arriveAll (s : State) (xs : List LineSymbol) : s.KeepsSupply (s.arriveAll xs) := by
  induction xs generalizing s with
  | nil => exact .refl s
  | cons x xs ih => exact (State.KeepsSupply.arrive s x).trans (ih _)

theorem State.KeepsSupply.fallSilent (s : State) : s.KeepsSupply s.fallSilent where
  powered := by simp
  resetnHigh := by simp
  pending := by simp
  passive hr := ⟨s.dn, by rw [State.fallSilent, if_neg (by rw [hr]; nofun)]⟩

theorem State.KeepsSupply.occur (s : State) (o : Occasion) : s.KeepsSupply (s.occur o) := by
  cases o with
  | arrival x => exact .arrive s x
  | silence => exact .fallSilent s

theorem State.KeepsSupply.comesAbout (s : State) (named : State → State → Bool) {event : State → State}
    (he : ∀ u : State, u.KeepsSupply (event u)) : ∃ t, s.comesAbout named event = .next t ∧ s.KeepsSupply t := by
  unfold State.comesAbout
  dsimp only
  split
  · exact ⟨_, rfl, (State.KeepsSupply.quiet s).trans (he _)⟩
  · exact ⟨_, rfl, .quiet s⟩

theorem State.KeepsSupply.comesAbout_arrive (s : State) (named : State → State → Bool) (x : LineSymbol) :
    ∃ t, s.comesAbout named (State.arrive x) = .next t ∧ s.KeepsSupply t :=
  State.KeepsSupply.comesAbout s named fun u => .arrive u x

theorem State.KeepsSupply.comesAbout_occur (s : State) (named : State → State → Bool) (o : Occasion) :
    ∃ t, s.comesAbout named (State.occur o) = .next t ∧ s.KeepsSupply t :=
  State.KeepsSupply.comesAbout s named fun u => .occur u o

theorem exec_keepsSupply {c : Instr} (hc : ofSupply c = false) (s : State) : ∃ t, exec c s = .next t ∧ s.KeepsSupply t := by
  have hq := State.KeepsSupply.quiet s
  cases hr : requestOf c with
  | some q => exact ⟨_, exec_request hr, hq.trans (.arriveAll _ _)⟩
  | none =>
    cases c
    case powerOn | resetnAssert | resetnRelease | powerLoss => cases hc
    case symbolArrival x => exact ⟨_, rfl, hq.trans (.arrive _ x)⟩
    case lossOfSignal => exact ⟨_, rfl, hq.trans (.fallSilent _)⟩
    case drainEnd =>
      refine ⟨_, rfl, ?_⟩
      split
      next hd =>
        rw [Bool.and_eq_true] at hd
        exact ⟨rfl, rfl, rfl, fun hr => by rw [hr] at hd; cases hd.1⟩
      · exact hq
    case dataRecordCompletion => exact ⟨_, rfl, hq.trans (.arriveAll _ _)⟩
    case trainLimitBreak | joinWaitEntry | leavingThePath | noticePlacement =>
      simp only [exec, execTrainLimitBreak, execJoinWaitEntry, execLeavingThePath, execNoticePlacement]
      exact State.KeepsSupply.comesAbout_arrive s _ _
    case heldCountExpiry | periodExpiry | stale | captureTimeout | trialDone =>
      simp only [exec, execHeldCountExpiry, execPeriodExpiry, execStale, execCaptureTimeout, execTrialDone,
        State.comesAboutAtEnd]
      exact State.KeepsSupply.comesAbout_occur s _ _
    all_goals cases hr

/-- Settles O2: the commands of the supply by their definitions, every other one by what it keeps. -/
theorem everyCommandAnswersANextState : Obligations.EveryCommandAnswersANextState := by
  unfold Obligations.EveryCommandAnswersANextState
  intro c s
  cases hc : ofSupply c with
  | false =>
    obtain ⟨t, ht, hkeeps⟩ := exec_keepsSupply hc s
    exact ⟨t, ht, hkeeps.pending⟩
  | true =>
    cases c
    case powerOn | powerLoss => exact ⟨_, rfl, rfl⟩
    case resetnAssert =>
      refine ⟨_, rfl, ?_⟩
      show (if s.powered = true then s.quiet.resetBlocks else s.quiet).pending = s.pending
      split <;> rfl
    case resetnRelease =>
      by_cases hh : s.resetnHigh = true
      · exact ⟨_, if_pos hh, rfl⟩
      · exact ⟨_, if_neg hh, rfl⟩
    all_goals cases hc

/-! ### Resets (R27) -/

/-- The part held in reset: every block at its reset value. -/
def State.AtReset (s : State) : Prop := s.powered = true → s.resetnHigh = false → s = s.resetBlocks

theorem State.AtReset.frame {s t : State} (h : s.AtReset) (ht : s.KeepsSupply t) : t.AtReset := by
  intro hp hr
  rw [ht.powered] at hp
  rw [ht.resetnHigh] at hr
  obtain ⟨xs, rfl⟩ := ht.passive (by rw [State.running, hr, Bool.and_false])
  have hs := h hp hr
  exact congrArg (fun u : State => { u with dn := xs }) hs

theorem exec_atReset {c : Instr} {s t : State} (h : s.AtReset) (hs : exec c s = .next t) : t.AtReset := by
  cases hc : ofSupply c with
  | false =>
    obtain ⟨u, hu, hkeeps⟩ := exec_keepsSupply hc s
    obtain rfl := Host.Outcome.next.inj (hs.symm.trans hu)
    exact h.frame hkeeps
  | true =>
    cases c
    case powerOn =>
      obtain rfl := Host.Outcome.next.inj hs
      exact fun _ _ => rfl
    case resetnAssert =>
      obtain rfl := Host.Outcome.next.inj hs
      intro hp _
      have hp' : s.powered = true := by
        by_contra hn
        rw [if_neg hn] at hp
        exact hn hp
      rw [if_pos hp']
      rfl
    case resetnRelease =>
      simp only [exec, execResetnRelease] at hs
      split at hs
      next hh =>
        obtain rfl := Host.Outcome.next.inj hs
        intro _ hr
        rw [show s.quiet.resetnHigh = true from hh] at hr
        cases hr
      · obtain rfl := Host.Outcome.next.inj hs
        exact fun _ => nofun
    case powerLoss =>
      obtain rfl := Host.Outcome.next.inj hs
      exact nofun
    all_goals cases hc

theorem step_atReset {s t : State} (h : s.AtReset) (hs : step s = .next t) : t.AtReset := by
  unfold step at hs
  split at hs
  · obtain rfl := Host.Outcome.next.inj hs
    refine h.frame ⟨by simp, by simp, by simp, fun hr => ⟨[], ?_⟩⟩
    have hq : s.quiet.running = false := hr
    rw [State.symbolTime, if_neg (by rw [hq]; nofun)]
    rfl
  next c rest hp =>
    refine exec_atReset (fun hpow hres => ?_) hs
    exact congrArg (fun u : State => { u with pending := rest }) (h hpow hres)

/-- Settles O31: the reset's own values, and what a step does to a part held in reset. -/
theorem everyResetSetsEveryBlock : Obligations.EveryResetSetsEveryBlock := by
  unfold Obligations.EveryResetSetsEveryBlock
  intro rate0 rate1 s selected flags nothing starting fresh heldAtReset
  have hrate : rateOf rate0 rate1 = selected := by cases rate0 <;> cases rate1 <;> rfl
  have hheld (u : State) : heldAtReset u ↔ u.AtReset := by
    refine forall_congr' fun hp => forall_congr' fun hr => ?_
    rw [State.resetBlocks, hp, hr]
    rfl
  refine ⟨fun h t ht => ?_, ?_, ?_, ?_⟩
  · rw [hheld] at h ⊢
    exact step_atReset h ht
  · rw [← hrate]
    rfl
  · refine congrArg Host.Outcome.next ?_
    by_cases hp : s.powered = true
    · rw [if_pos hp, if_pos hp, State.resetBlocks, show s.quiet.powered = true from hp]
      rfl
    · rw [if_neg hp, if_neg hp]
      rfl
  · by_cases hh : s.resetnHigh = true
    · exact (if_pos hh).trans (congrArg Host.Outcome.next (if_pos hh).symm)
    · refine (if_neg hh).trans (congrArg Host.Outcome.next ?_)
      rw [if_neg hh, ← hrate]
      rfl

/-! ### A symbol time without an arrival (R23, R34) -/

/-- The timer's count while it is below its limit, or the signal lost already. -/
theorem State.countSilence_below {s : State} (h : s.framer.signal = .lost ∨ s.framer.silence < 127) :
    s.countSilence =
      { s with framer := if s.framer.signal = .present then { s.framer with silence := s.framer.silence + 1 } else s.framer } := by
  unfold State.countSilence
  cases hs : s.framer.signal with
  | present =>
    have hlt : s.framer.silence + 1 < Config.silenceLimit := by
      have := h.resolve_left (by rw [hs]; nofun)
      show _ < 128
      omega
    exact (if_pos rfl).trans (if_pos hlt)
  | lost => rfl

/-- A symbol time of a drain, by what the Delay Line still holds (R34). -/
theorem State.drainTick_eq (s : State) :
    (s.delay = [] → s.quiet.drainTick = { s with
      dn := if s.link.drainTa = true then [.readable .ta] else []
      link := { s.link with bypassClosed := true, draining := false, drainTa := false } }) ∧
    (∀ x, s.delay = [x] → s.link.drainTa = false → s.quiet.drainTick = { s with
      dn := [.readable x], delay := [], link := { s.link with bypassClosed := true, draining := false, drainTa := false } }) ∧
    (∀ x rest, s.delay = rest ++ [x] → rest ≠ [] ∨ s.link.drainTa = true →
      s.quiet.drainTick = { s with dn := [.readable x], delay := rest }) := by
  refine ⟨fun hd => ?_, fun x hd hta => ?_, fun x rest hd hmore => ?_⟩
  · cases hta : s.link.drainTa <;>
      simp [State.drainTick, State.finishDrain, State.drainOver, State.drainRest, State.emit, State.quiet, hd, hta]
  · simp [State.drainTick, State.drainOver, State.emit, State.quiet, hd, hta]
  · rcases hmore with h | h <;> simp [State.drainTick, State.emit, State.quiet, hd, h]

/-- A symbol time of a part that runs and does not drain: the timer alone. -/
theorem State.symbolTime_noDrain {s : State} (hr : s.running = true) (hd : s.link.draining = false) :
    s.quiet.symbolTime = s.quiet.countSilence := by
  have hr' : s.quiet.running = true := hr
  have hd' : ¬ s.quiet.link.draining = true := by
    show ¬ s.link.draining = true
    rw [hd]
    nofun
  rw [State.symbolTime, if_pos hr', if_neg hd']

/-- The 128th symbol time without an arrival declares the loss, which LOSS_OF_SIGNAL does at once. -/
theorem State.fallSilent_noDrain {s : State} (hr : s.running = true) (hd : s.link.draining = false) :
    s.quiet.fallSilent = if s.framer.signal = .present then s.quiet.declareLoss else s.quiet := by
  have hr' : s.quiet.running = true := hr
  have hd' : ¬ s.quiet.link.draining = true := by
    show ¬ s.link.draining = true
    rw [hd]
    nofun
  rw [State.fallSilent, if_pos hr', if_neg hd']
  cases hs : s.framer.signal <;> simp [hs]

theorem step_idle {s : State} (hp : s.pending = []) : step s = .next s.quiet.symbolTime := by
  unfold step
  rw [hp]

/-- Settles O33: by whether the part runs and drains, and by what is left of the drain. -/
theorem anIdleStepIsASymbolTime : Obligations.AnIdleStepIsASymbolTime := by
  unfold Obligations.AnIdleStepIsASymbolTime
  intro s hp counted switched
  rw [step_idle hp]
  refine ⟨fun hr => ?_, fun hr hd => ⟨fun hl => ?_, fun hs hlt => ?_, fun hs h127 => ?_⟩, fun hr hd hbelow => ?_⟩
  · have hq : s.quiet.running = false := hr
    rw [State.symbolTime, if_neg (by rw [hq]; nofun)]
    rfl
  · rw [State.symbolTime_noDrain hr hd, State.countSilence_below (s := s.quiet) (.inl hl)]
    refine congrArg Host.Outcome.next ?_
    simp [State.quiet, hl]
  · rw [State.symbolTime_noDrain hr hd, State.countSilence_below (s := s.quiet) (.inr hlt)]
    rfl
  · rw [State.symbolTime_noDrain hr hd]
    have hsilent : exec .lossOfSignal s = .next s.quiet.fallSilent := rfl
    rw [hsilent, State.fallSilent_noDrain hr hd, if_pos hs, State.countSilence]
    refine congrArg Host.Outcome.next ?_
    simp [hs, h127, Config.silenceLimit]
  · have htime : s.quiet.symbolTime = s.quiet.drainTick.countSilence := by
      have hr' : s.quiet.running = true := hr
      have hd' : s.quiet.link.draining = true := hd
      rw [State.symbolTime, if_pos hr', if_pos hd']
    have hcount (u : State) (hu : u.framer = s.framer) : u.countSilence = { u with framer := counted s.framer } := by
      have hbelow' : u.framer.signal = .lost ∨ u.framer.silence < 127 := hu ▸ hbelow
      rw [State.countSilence_below hbelow', hu]
    obtain ⟨hempty, hone, hmany⟩ := s.drainTick_eq
    rw [htime]
    refine ⟨fun h => ?_, fun x h hta => ?_, fun x rest h hmore => ?_⟩
    · rw [hempty h]
      exact congrArg Host.Outcome.next (hcount _ rfl)
    · rw [hone x h hta]
      exact congrArg Host.Outcome.next (hcount _ rfl)
    · rw [hmany x rest h hmore]
      exact congrArg Host.Outcome.next (hcount _ rfl)

/-! ### The loss of signal (R23, R33, R34) -/

/-- The part that a loss of signal leaves before the Link Controller's answer: the report, and the open train's end (R23). -/
def State.lossEnded (s : State) : State :=
  let reported := State.report 5 { s with framer := { s.framer with signal := .lost, silence := 128 } }
  if s.framer.position = .outside then reported else reported.trainEnd false

/-- The declaration of a loss, in two moves. -/
theorem State.declareLoss_eq (s : State) :
    s.declareLoss = { s.lossEnded with link := s.lossEnded.link.loseSignal s.framer.trainOpen } := by
  unfold State.declareLoss State.lossEnded
  have ho := Framer.trainOpen_iff s.framer
  dsimp only
  by_cases hp : s.framer.position = .outside
  · rw [if_pos hp, if_neg (by rw [ho]; exact not_not.2 hp)]
    rfl
  · rw [if_neg hp, if_pos (ho.2 hp)]
    rfl

/-- The drain's rest, as it leaves at once (R34). -/
theorem State.finishDrain_eq (s : State) :
    s.quiet.finishDrain = { s with
      dn := (s.delay.reverse ++ if s.link.drainTa = true then [Symbol.ta] else []).map .readable, delay := []
      link := { s.link with bypassClosed := true, draining := false, drainTa := false } } := by
  simp only [State.finishDrain, State.drainOver, State.emit, State.drainRest, State.quiet, List.nil_append]
  rfl

/-- The part with other symbols left at DN. -/
def State.atDn (xs : List LineSymbol) (s : State) : State := { s with dn := xs }

section

variable (xs : List LineSymbol) (s : State)

theorem State.pushIncident_atDn (k : IncidentKind) (e : Option Nat) (v : Option Word) :
    (s.atDn xs).pushIncident k e v = (s.pushIncident k e v).atDn xs := by
  unfold State.pushIncident
  rw [show (s.atDn xs).queue = s.queue from rfl]
  split <;> rfl

theorem State.report_atDn (cause : Nat) : (s.atDn xs).report cause = (s.report cause).atDn xs :=
  State.pushIncident_atDn xs (s.raise .link) ..

theorem State.timeEntry_atDn (i : Nat) : (s.atDn xs).timeEntry i = (s.timeEntry i).atDn xs := by
  have hpush := State.pushIncident_atDn xs (s.updateEntry i Entry.timingUpdate) .stale (some i) none
  unfold State.timeEntry
  rw [show (s.atDn xs).entry i = s.entry i from rfl, show (s.atDn xs).updateEntry i Entry.timingUpdate =
    (s.updateEntry i Entry.timingUpdate).atDn xs from rfl]
  dsimp only
  rw [hpush]
  split <;> rfl

theorem State.timeEntriesFrom_atDn (n i : Nat) : State.timeEntriesFrom n i (s.atDn xs) = (State.timeEntriesFrom n i s).atDn xs := by
  induction n generalizing i s with
  | zero => rfl
  | succ n ih => rw [State.timeEntriesFrom, State.timeEntry_atDn, ih, State.timeEntriesFrom]

theorem State.closeOperation_atDn (c : EndCause) (how : TrialLeave) :
    (s.atDn xs).closeOperation c how = (s.closeOperation c how).atDn xs := by
  rw [State.closeOperation_eq, State.closeOperation_eq]
  rfl

theorem State.endOperation_atDn (c : EndCause) (how : TrialLeave) :
    (s.atDn xs).endOperation c how = (s.endOperation c how).atDn xs := by
  unfold State.endOperation
  rw [State.closeOperation_atDn, show (s.atDn xs).op = s.op from rfl]
  split <;> rfl

theorem State.captureTrainEnd_atDn : (s.atDn xs).captureTrainEnd = s.captureTrainEnd.atDn xs := by
  unfold State.captureTrainEnd
  rw [show (s.atDn xs).op = s.op from rfl]
  split
  next c _ =>
    have hend := State.endOperation_atDn xs { s with op := { s.op with slot := .capture { c with without := c.without + 1 } } }
      .timeout .complete
    dsimp only
    split
    · exact hend
    · rfl
  · rfl

theorem State.trialTrainEnd_atDn : (s.atDn xs).trialTrainEnd = s.trialTrainEnd.atDn xs := by
  unfold State.trialTrainEnd
  rw [show (s.atDn xs).op = s.op from rfl]
  split
  next t _ =>
    have hend := State.endOperation_atDn xs { s with op := { s.op with slot := .trial { t with counted := t.counted + 1 } } }
      .done .complete
    dsimp only
    split
    · exact hend
    · rfl
  · rfl

theorem State.trainEndInPath_atDn : (s.atDn xs).trainEndInPath = s.trainEndInPath.atDn xs := by
  have htimed : (if s.framer.freezeFlag = true then s.atDn xs else (s.atDn xs).timingUpdate) =
      State.atDn xs (if s.framer.freezeFlag = true then s else s.timingUpdate) := by
    split
    · rfl
    · exact State.timeEntriesFrom_atDn xs s _ _
  have htrial (u : State) : (if s.framer.freezeFlag = true then u.atDn xs else (u.atDn xs).trialTrainEnd) =
      State.atDn xs (if s.framer.freezeFlag = true then u else u.trialTrainEnd) := by
    split
    · rfl
    · exact State.trialTrainEnd_atDn xs u
  unfold State.trainEndInPath
  rw [show (s.atDn xs).framer = s.framer from rfl]
  dsimp only
  rw [htimed, State.captureTrainEnd_atDn, htrial]
  split <;> rfl

theorem State.linkTrainEnd_atDn (before : LinkState) (byTe clean : Bool) :
    (s.atDn xs).linkTrainEnd before byTe clean = (s.linkTrainEnd before byTe clean).atDn xs := by
  unfold State.linkTrainEnd
  split
  case h_2 =>
    unfold State.joinWaitEnd
    rw [show (s.atDn xs).link = s.link from rfl]
    repeat' split
    all_goals rfl
  all_goals rfl

theorem State.trainEnd_atDn (byTe : Bool) : (s.atDn xs).trainEnd byTe = (s.trainEnd byTe).atDn xs := by
  have hpath : (if s.inPath = true then (s.atDn xs).trainEndInPath else s.atDn xs) =
      State.atDn xs (if s.inPath = true then s.trainEndInPath else s) := by
    split
    · exact State.trainEndInPath_atDn xs s
    · rfl
  unfold State.trainEnd
  rw [show (s.atDn xs).inPath = s.inPath from rfl, show (s.atDn xs).framer = s.framer from rfl,
    show (s.atDn xs).link = s.link from rfl]
  dsimp only
  rw [hpath, State.linkTrainEnd_atDn]
  rfl

/-- The declaration of a loss looks at nothing that has left at DN. -/
theorem State.declareLoss_atDn : (s.atDn xs).declareLoss = s.declareLoss.atDn xs := by
  have hended : (s.atDn xs).lossEnded = s.lossEnded.atDn xs := by
    have hreport := State.report_atDn xs { s with framer := { s.framer with signal := .lost, silence := 128 } } 5
    unfold State.lossEnded
    rw [show (s.atDn xs).framer = s.framer from rfl]
    dsimp only
    split
    · exact hreport
    · exact (congrArg (State.trainEnd false) hreport).trans (State.trainEnd_atDn xs _ false)
  rw [State.declareLoss_eq, State.declareLoss_eq, hended]
  rfl

end

/-- Settles O34: by whether a drain is on and the signal is lost already. -/
theorem lossOfSignalEndsTheTrainAndDrainsThePart : Obligations.LossOfSignalEndsTheTrainAndDrainsThePart := by
  unfold Obligations.LossOfSignalEndsTheTrainAndDrainsThePart
  intro s hr
  refine ⟨fun hd => ⟨fun hl => ?_, fun hp => ?_⟩, fun hd => ?_, fun hd => ?_⟩
  · refine congrArg Host.Outcome.next ?_
    rw [State.fallSilent_noDrain hr hd, if_neg (by rw [hl]; nofun)]
    rfl
  · intro reported ended l draining
    refine congrArg Host.Outcome.next ?_
    rw [State.fallSilent_noDrain hr hd, if_pos hp, State.declareLoss_eq]
    have hended : s.quiet.lossEnded = ended := rfl
    have hlink : l.loseSignal s.framer.trainOpen =
        match l.state with
        | .acquire => { l with cleanCount := 0 }
        | .joinWait => { l with state := .acquire, cleanCount := 0 }
        | .inline => { draining with state := .acquire, cleanCount := 0 }
        | .leaveWait => { draining with state := .held }
        | .held => l := by
      unfold Link.loseSignal
      cases l.state <;> rfl
    rw [hended]
    exact congrArg (fun k : Link => { ended with link := k }) hlink
  · intro drained
    have hdrained : s.quiet.finishDrain = drained := s.finishDrain_eq
    have hr' : s.quiet.running = true := hr
    have hd' : s.quiet.link.draining = true := hd
    have hend : exec .drainEnd s = .next drained := by
      refine congrArg Host.Outcome.next ?_
      rw [if_pos (by rw [hr, hd]; rfl), hdrained]
    have hloss : exec .lossOfSignal s = .next (if s.framer.signal = .present then drained.declareLoss else drained) := by
      refine congrArg Host.Outcome.next ?_
      rw [State.fallSilent, if_pos hr', if_pos hd', hdrained]
      cases hs : s.framer.signal <;> simp [drained, hs]
    refine ⟨hend, fun hl => ?_, fun hp => ⟨drained.declareLoss, ?_, ?_, ?_⟩⟩
    · rw [hloss, if_neg (by rw [hl]; nofun)]
    · rw [hloss, if_pos hp]
    · refine congrArg Host.Outcome.next ?_
      rw [State.fallSilent_noDrain (s := drained) hr rfl]
      exact (if_pos hp).trans (State.declareLoss_atDn [] drained)
    · simp
  · have hd' : ¬ (s.running && s.link.draining) = true := by
      rw [hd, Bool.and_false]
      nofun
    exact congrArg Host.Outcome.next (if_neg hd')

end Sys2Proof.Machine
end

section
/-! PROOF. A bypassed part only watches: of it the Framer, the Link Controller and the train's own marks move (R22, R28, R30, R31, R35). -/

namespace Sys2Proof.Machine

/-- A part that an arrival has met outside the path and left there, with nothing moved but the Framer, the Link Controller and the
train's own marks. -/
structure State.Quietly (o t : State) : Prop where
  outOfPath : t.inPath = false
  joinWait : t.link.state = .joinWait → o.link.state = .joinWait
  mode : t.link.mode = o.link.mode
  delay : t.delay = o.delay
  table : t.table = o.table
  streak : t.trialStreak = o.trialStreak
  reaction : t.reaction = o.reaction
  queue : t.queue = o.queue
  op : t.op = o.op
  alert : t.alert = o.alert ∨ t.alert = { o.alert with noticeRun := 0 }
  position : t.position = o.position ∨ t.position = none

/-- The same after the end of a train, which may have brought the part into the path. -/
structure State.Watched (o t : State) : Prop where
  notLeaving : t.link.state ≠ .leaveWait
  mode : t.link.mode = o.link.mode
  delay : t.delay = o.delay ∨ (o.link.state = .joinWait ∧ t.link.state = .inline)
  table : t.table = o.table
  streak : t.trialStreak = o.trialStreak
  reaction : t.reaction = o.reaction
  queue : t.queue = o.queue
  op : t.op = o.op
  alert : t.alert = o.alert ∨ t.alert = { o.alert with noticeRun := 0 }
  position : t.position = o.position ∨ t.position = none

section

variable {o s t : State}

theorem State.notLeaving_of_outOfPath (h : s.inPath = false) : s.link.state ≠ .leaveWait := fun hs => by
  rw [State.inPath, hs] at h
  cases h

theorem State.Quietly.watched (h : o.Quietly t) : o.Watched t :=
  ⟨State.notLeaving_of_outOfPath h.outOfPath, h.mode, .inl h.delay, h.table, h.streak, h.reaction, h.queue, h.op, h.alert, h.position⟩

/-- A move of the Framer, of the Link Controller's counts and of the train's marks. -/
theorem State.Quietly.move (h : o.Quietly s) (hi : t.inPath = false) (hj : t.link.state = .joinWait → s.link.state = .joinWait)
    (hm : t.link.mode = s.link.mode)
    (ht : t.delay = s.delay ∧ t.table = s.table ∧ t.trialStreak = s.trialStreak ∧ t.reaction = s.reaction ∧ t.queue = s.queue ∧
      t.op = s.op)
    (ha : t.alert = s.alert ∨ t.alert = { s.alert with noticeRun := 0 }) (hp : t.position = s.position ∨ t.position = none) :
    o.Quietly t := by
  obtain ⟨hd, htab, hstr, hr, hq, hop⟩ := ht
  refine ⟨hi, fun hs => h.joinWait (hj hs), hm.trans h.mode, hd.trans h.delay, htab.trans h.table, hstr.trans h.streak, hr.trans h.reaction,
    hq.trans h.queue, hop.trans h.op, ?_, ?_⟩
  · rcases h.alert with h1 | h1 <;> rcases ha with h2 | h2 <;> rw [h1] at h2
    · exact .inl h2
    · exact .inr h2
    · exact .inr h2
    · exact .inr h2
  · rcases hp with hp | hp
    · rw [hp]; exact h.position
    · exact .inr hp

/-- A move of the Framer and of the notice run alone. -/
theorem State.Quietly.reframe (h : o.Quietly s)
    (ht : t.link = s.link ∧ t.position = s.position ∧ t.delay = s.delay ∧ t.table = s.table ∧ t.trialStreak = s.trialStreak ∧
      t.reaction = s.reaction ∧ t.queue = s.queue ∧ t.op = s.op)
    (ha : t.alert = s.alert ∨ t.alert = { s.alert with noticeRun := 0 }) : o.Quietly t := by
  obtain ⟨hl, hp, hrest⟩ := ht
  have hi : t.inPath = s.inPath := by rw [State.inPath, hl, State.inPath]
  exact h.move (hi.trans h.outOfPath) (fun hs => hl ▸ hs) (by rw [hl]) hrest ha (.inl hp)

/-- Nothing is reported outside the path (R22). -/
theorem State.Quietly.reportInPath_eq (h : o.Quietly s) (cause : Nat) : s.reportInPath cause = s := by
  simp [State.reportInPath, h.outOfPath]

theorem State.Quietly.setPosition (h : o.Quietly s) (p : ParsePosition) : o.Quietly (s.setPosition p) :=
  h.reframe (by simp) (.inl (by simp))

theorem State.Quietly.breakRun (h : o.Quietly s) : o.Quietly s.breakRun := h.reframe (by simp) (.inr rfl)

theorem State.Quietly.damagedRecord (h : o.Quietly s) : o.Quietly s.damagedRecord := by
  rw [State.damagedRecord, h.reportInPath_eq]
  exact h.reframe (by simp) (.inl rfl)

theorem State.Quietly.cutRecord (h : o.Quietly s) : o.Quietly s.cutRecord := by
  rw [State.cutRecord, h.reportInPath_eq]
  exact h.reframe (by simp [State.setPosition, State.markFaulted]) (.inl rfl)

/-- The end of a train outside the path: the marks cleared, the Framer closed, the Link Controller's answer (R29 to R31, R35). -/
theorem State.trainEnd_outOfPath (h : s.inPath = false) (byTe : Bool) :
    s.trainEnd byTe =
      { (s.linkTrainEnd s.link.state byTe (byTe && s.framer.readable && !s.framer.trainFaulted)).clearTrainMarks with
        framer := s.framer.closed } := by
  unfold State.trainEnd
  dsimp only
  rw [if_neg (by rw [h]; nofun)]
  simp

/-- Outside the path the end of a train is reported to nobody (R22). -/
theorem State.endTrain_outOfPath (h : s.inPath = false) (byTe : Bool) : s.endTrain byTe = s.trainEnd byTe := by
  unfold State.endTrain
  dsimp only
  congr 1
  repeat' split
  all_goals simp [State.reportInPath, h]

theorem Link.countClean_state {l : Link} (h : l.state = .acquire) (clean : Bool) :
    (l.countClean clean).state = .acquire ∨ (l.countClean clean).state = .joinWait := by
  unfold Link.countClean
  repeat' split
  · exact .inr rfl
  · exact .inl h
  · exact .inl h

theorem Link.countHeld_state {l : Link} (h : l.state = .held) : l.countHeld.state = .held ∨ l.countHeld.state = .acquire := by
  unfold Link.countHeld
  repeat' split
  · exact .inl h
  · exact .inr rfl
  · exact .inl h

/-- Neither the lines nor the marks of the train move with the Link Controller's answer to a break. -/
theorem State.Quietly.endTrain_break (h : o.Quietly s) : o.Quietly (s.endTrain false) := by
  have hi := h.outOfPath
  have hl := State.linkTrainEnd_break_outside hi false
  have hmove : (s.linkTrainEnd s.link.state false false).delay = s.delay ∧
      ((s.linkTrainEnd s.link.state false false).link.state = .joinWait → s.link.state = .joinWait) ∧
      (s.linkTrainEnd s.link.state false false).link.mode = s.link.mode := by
    unfold State.linkTrainEnd
    cases hs : s.link.state <;> rw [State.inPath, hs] at hi
    case acquire => exact ⟨rfl, fun hj => by rw [show (s.link.countClean false).state = s.link.state from rfl, hs] at hj; exact hj, by simp⟩
    case joinWait => exact ⟨rfl, fun _ => rfl, rfl⟩
    case held =>
      refine ⟨rfl, fun hj => ?_, by simp⟩
      rcases Link.countHeld_state hs with hc | hc <;> cases hc.symm.trans hj
    all_goals cases hi
  rw [State.endTrain_outOfPath hi, State.trainEnd_outOfPath hi, Bool.false_and, Bool.false_and]
  exact h.move hl hmove.2.1 hmove.2.2 (by simpa using hmove.1) (.inr (by simp [State.clearTrainMarks])) (.inr rfl)

/-- A TE may take a part in JOIN-WAIT into the path (R31). -/
theorem State.Quietly.endTrain_te (h : o.Quietly s) : o.Watched (s.endTrain true) := by
  have hi := h.outOfPath
  rw [State.endTrain_outOfPath hi, State.trainEnd_outOfPath hi]
  generalize (true && s.framer.readable && !s.framer.trainFaulted) = clean
  have hmove : (s.linkTrainEnd s.link.state true clean).link.state ≠ .leaveWait ∧
      ((s.linkTrainEnd s.link.state true clean).delay = s.delay ∨
        (s.link.state = .joinWait ∧ (s.linkTrainEnd s.link.state true clean).link.state = .inline)) ∧
      (s.linkTrainEnd s.link.state true clean).link.mode = s.link.mode := by
    unfold State.linkTrainEnd
    cases hs : s.link.state <;> rw [State.inPath, hs] at hi
    case acquire =>
      refine ⟨fun hl => ?_, .inl rfl, by simp⟩
      rcases Link.countClean_state hs clean with hc | hc <;> cases hc.symm.trans hl
    case joinWait =>
      simp only [State.joinWaitEnd, if_true]
      split
      · exact ⟨by simp [hs], .inl rfl, rfl⟩
      · exact ⟨nofun, .inr ⟨trivial, rfl⟩, rfl⟩
    case held =>
      refine ⟨fun hl => ?_, .inl rfl, by simp⟩
      rcases Link.countHeld_state hs with hc | hc <;> cases hc.symm.trans hl
    all_goals cases hi
  obtain ⟨hleave, hdelay, hmode⟩ := hmove
  have halert : (s.linkTrainEnd s.link.state true clean).clearTrainMarks.alert = { s.alert with noticeRun := 0 } := by
    simp [State.clearTrainMarks]
  refine ⟨hleave, hmode.trans h.mode, ?_, ?_, ?_, ?_, ?_, ?_, ?_, .inr rfl⟩
  · exact hdelay.imp (fun hd => hd.trans h.delay) fun ⟨hj, hin⟩ => ⟨h.joinWait hj, hin⟩
  · simpa using h.table
  · simpa using h.streak
  · simpa using h.reaction
  · simpa using h.queue
  · simpa using h.op
  · refine .inr (halert.trans ?_)
    rcases h.alert with ha | ha <;> rw [ha]

theorem State.Quietly.openTrain (h : o.Quietly s) : o.Quietly s.openTrain := by
  have habort : s.openTrain = { s.clearTrainMarks with framer := s.framer.opened } := by
    have hi : State.inPath { s.clearTrainMarks with framer := s.framer.opened } = false := h.outOfPath
    rw [State.openTrain, State.trainAbort, if_neg (by rw [hi]; nofun)]
  rw [habort]
  exact h.move h.outOfPath id rfl ⟨rfl, rfl, rfl, rfl, rfl, rfl⟩ (.inr rfl) (.inr rfl)

theorem State.Quietly.strayInBody (h : o.Quietly s) : o.Quietly s.strayInBody := by
  have hb := h.breakRun
  unfold State.strayInBody
  dsimp only
  rw [hb.reportInPath_eq, ite_self]
  exact hb.reframe ⟨rfl, rfl, rfl, rfl, rfl, rfl, rfl, rfl⟩ (.inl rfl)

theorem State.Quietly.strayOutside (h : o.Quietly s) : o.Quietly s.strayOutside := by
  unfold State.strayOutside
  dsimp only
  rw [h.reportInPath_eq, ite_self]
  refine h.move (by simpa [State.inPath] using h.outOfPath) (fun hj => ?_) (by simp) ⟨rfl, rfl, rfl, rfl, rfl, rfl⟩ (.inl rfl) (.inl rfl)
  revert hj
  show s.link.stray.state = _ → _
  unfold Link.stray
  split
  · exact id
  · nofun
  · exact id

/-- No block takes a record that completes outside the path (R28). -/
theorem State.Quietly.deliver (h : o.Quietly s) (r : RecordProgress) : o.Quietly (s.deliver r) := by
  have hd : s.deliver r = s := by
    unfold State.deliver
    cases r.kind <;> simp [State.completeData, State.completeRequest, h.outOfPath]
  rwa [hd]

theorem State.Quietly.takeRecordByte (h : o.Quietly s) (r : RecordProgress) (b : Byte) (err : Bool) :
    o.Quietly (s.takeRecordByte r b err) := by
  have hb := h.breakRun
  unfold State.takeRecordByte State.takeLength State.finishRecord
  dsimp only
  split
  · split
    · exact hb.damagedRecord.setPosition _
    · exact hb.setPosition _
  · split
    · split
      · exact (hb.setPosition _).deliver _
      · exact (hb.setPosition _).damagedRecord
    · exact hb.setPosition _

/-- A bypassed part reads the header for the JOIN flag only (R35). -/
theorem State.Quietly.headerRead (h : o.Quietly s) : o.Quietly s.headerRead := by
  have hb := h.breakRun
  have heq : s.headerRead = s.breakRun.takeJoinFlag := by
    have hi : ¬ s.breakRun.inPath = true := by rw [hb.outOfPath]; nofun
    exact if_neg hi
  rw [heq, State.takeJoinFlag]
  split
  · exact hb.move rfl nofun rfl ⟨rfl, rfl, rfl, rfl, rfl, rfl⟩ (.inl rfl) (.inl rfl)
  · exact hb

theorem State.Quietly.takeStatusByte (h : o.Quietly s) (due : Nat) (b : Byte) : o.Quietly (s.takeStatusByte due b) := by
  have hs : o.Quietly { s with framer := { s.framer with statusBytes := s.framer.statusBytes ++ [b] } } :=
    h.reframe ⟨rfl, rfl, rfl, rfl, rfl, rfl, rfl, rfl⟩ (.inl rfl)
  unfold State.takeStatusByte
  dsimp only
  split
  · exact hs.setPosition _
  · exact (hs.setPosition _).headerRead

/-! ### A symbol that does not end a train by TE -/

theorem State.Quietly.takeBody (h : o.Quietly s) {x : Symbol} (hx : x ≠ .te) : o.Quietly (s.takeBody x) := by
  cases x
  case fill =>
    have hf : s.bodyFill = s := by simp [State.bodyFill, State.extendRun, State.placeNotice, h.outOfPath]
    show o.Quietly s.bodyFill
    rwa [hf]
  case md | mq | ma | mn => exact h.breakRun.setPosition _
  case data | err => exact h.strayInBody
  case te => exact absurd rfl hx
  case ta => exact h.endTrain_break
  case ts => exact h.endTrain_break.openTrain

theorem State.Quietly.takeOutside (h : o.Quietly s) (x : Symbol) : o.Quietly (s.takeOutside x) := by
  unfold State.takeOutside
  split
  · exact h
  · exact h.openTrain
  · exact h.strayOutside

theorem State.Quietly.takeUnexpected (h : o.Quietly s) {x : Symbol} (hx : x ≠ .te) : o.Quietly (s.takeUnexpected x) := by
  unfold State.takeUnexpected
  split
  · exact absurd rfl hx
  · exact h.endTrain_break
  · exact h.endTrain_break.openTrain
  · exact h.setPosition _

/-- A bypassed part stays so at any symbol but TE. -/
theorem State.Quietly.takeSymbol (h : o.Quietly s) {x : Symbol} (hx : x ≠ .te) : o.Quietly (s.takeSymbol x) := by
  unfold State.takeSymbol
  split
  · exact h.takeOutside x
  next due _ =>
    unfold State.takeHeader
    split
    · exact h.reframe ⟨rfl, rfl, rfl, rfl, rfl, rfl, rfl, rfl⟩ (.inl rfl)
    · exact h.takeUnexpected hx
  next due _ =>
    unfold State.takeStatus
    split
    · exact h.takeStatusByte due _
    · exact h.takeUnexpected hx
  · exact h.takeBody hx
  next r _ =>
    unfold State.takeRecord
    split
    · exact h.takeRecordByte r _ _
    · exact h.takeRecordByte r _ _
    · exact h.cutRecord.takeBody hx
  · unfold State.takeSkip
    split
    · exact h.breakRun
    · exact h.breakRun
    · exact (h.setPosition _).takeBody hx
  · unfold State.takeUnread
    split
    · split
      · exact h.reframe ⟨rfl, rfl, rfl, rfl, rfl, rfl, rfl, rfl⟩ (.inl rfl)
      · exact h
    · exact h.takeUnexpected hx

/-- A TE outside a train is a stray symbol; with a train open it ends that train, after the cut of a record. -/
theorem State.takeSymbol_te (s : State) :
    (s.framer.position = .outside → s.takeSymbol .te = s.strayOutside) ∧
    (s.framer.position ≠ .outside → s.takeSymbol .te =
      (match s.framer.position with | .record _ => s.cutRecord | .skip => s.setPosition .body | _ => s).endTrain true) := by
  unfold State.takeSymbol
  refine ⟨fun h => by rw [h]; rfl, fun h => ?_⟩
  cases hp : s.framer.position
  case outside => exact absurd hp h
  all_goals rfl

theorem State.Quietly.limitIfDue (h : o.Quietly s) : o.Quietly s.limitIfDue := by
  unfold State.limitIfDue State.limitBreak
  split
  · split
    · exact h.cutRecord.endTrain_break
    · exact h.endTrain_break
  · exact h

/-- The line has moved for an arrival at a bypassed part. -/
theorem State.quietly_afterArrival (h : s.inPath = false) (x : LineSymbol) : s.Quietly (s.afterArrival x) where
  outOfPath := h
  joinWait := id
  mode := rfl
  delay := by
    show (if s.link.draining = false ∧ s.inPath = true then _ else s.delay) = s.delay
    rw [if_neg (by rw [h]; exact fun hc => Bool.false_ne_true hc.2)]
  table := rfl
  streak := rfl
  reaction := rfl
  queue := rfl
  op := rfl
  alert := .inl rfl
  position := .inl rfl

/-- An arrival at a bypassed part that runs, by whether it is a TE that ends a train. -/
theorem State.watched_arrival (h : s.inPath = false) (hr : s.running = true) (x : LineSymbol) : s.Watched (s.quiet.arrive x) := by
  have ha := State.quietly_afterArrival h x
  have hquiet {u : State} (hu : s.Quietly u) (heq : (s.afterArrival x).takeSymbol x.taken = u) : s.Watched (s.quiet.arrive x) := by
    have hlim := hu.limitIfDue
    rw [State.arrive_running x hr, heq, State.leaveIfDue_none (.inl (State.notLeaving_of_outOfPath hlim.outOfPath))]
    exact hlim.watched
  by_cases hx : x.taken = .te
  · obtain ⟨hout, hopen⟩ := State.takeSymbol_te (s.afterArrival x)
    by_cases hp : (s.afterArrival x).framer.position = .outside
    · exact hquiet ha.strayOutside (by rw [hx]; exact hout hp)
    · have hcut : s.Quietly (match (s.afterArrival x).framer.position with
          | .record _ => (s.afterArrival x).cutRecord
          | .skip => (s.afterArrival x).setPosition .body
          | _ => s.afterArrival x) := by
        split
        · exact ha.cutRecord
        · exact ha.setPosition _
        · exact ha
      have hended := hcut.endTrain_te
      have hsym := (congrArg (fun y => State.takeSymbol y (s.afterArrival x)) hx).trans (hopen hp)
      rw [State.arrive_betweenTrains hr hsym (State.endTrain_outside _ _), State.leaveIfDue_none (.inl hended.notLeaving)]
      exact hended
  · exact hquiet (ha.takeSymbol hx) rfl

/-- Settles O35: a part that does not run, and one that runs outside the path. -/
theorem aBypassedPartOnlyWatches : Obligations.ABypassedPartOnlyWatches := by
  unfold Obligations.ABypassedPartOnlyWatches
  intro x s hi
  refine ⟨s.quiet.arrive x, rfl, ?_⟩
  by_cases hr : s.running = true
  · have h := State.watched_arrival hi hr x
    have hdn : (s.quiet.arrive x).dn = if s.running = true ∧ s.link.draining = true then [] else [x] := by
      have hafter : (s.afterArrival x).dn = if s.link.draining = true then [] else [x] := by
        show (if s.link.draining = true then [] else if s.inPath = true then _ else [x]) = _
        rw [hi, if_neg Bool.false_ne_true]
      rw [State.arrive_running x hr]
      simpa [hr] using hafter
    have hmarks : { (s.quiet.arrive x).alert with noticeRun := 0 } = { s.alert with noticeRun := 0 } := by
      rcases h.alert with ha | ha <;> rw [ha]
    have hrun : (s.quiet.arrive x).alert.noticeRun = s.alert.noticeRun ∨ (s.quiet.arrive x).alert.noticeRun = 0 :=
      h.alert.imp (congrArg AlertUnit.noticeRun) (congrArg AlertUnit.noticeRun)
    exact ⟨hdn, h.table, h.streak, h.reaction, h.queue, h.op, hmarks, hrun, h.position, h.delay, h.mode, by simp, by simp, by simp, by simp⟩
  · rw [Bool.not_eq_true] at hr
    rw [State.arrive_notRunning hr]
    refine ⟨?_, rfl, rfl, rfl, rfl, rfl, rfl, .inl rfl, .inl rfl, .inl rfl, rfl, rfl, rfl, rfl, rfl⟩
    rw [hr, if_neg fun hc => Bool.false_ne_true hc.1]

end

end Sys2Proof.Machine
end

section
/-! PROOF. An arrival in the path moves the Delay Line: what else changes its places, and which of them (R2, R24, R25, R32, R109, R143). -/

namespace Sys2Proof.Machine

/-! ### The line's own rules -/

/-- Writing over the newest n places leaves the others. -/
theorem overwriteNewest_drop {xs delay : List Symbol} {n : Nat} (h : xs.length ≤ n) :
    (overwriteNewest xs delay).drop n = delay.drop n := by
  rw [overwriteNewest, List.drop_append, List.drop_eq_nil_of_le (by simpa using h), List.nil_append, List.drop_drop, List.length_reverse,
    Nat.add_sub_cancel' h]

/-- The part stays in the path, and its Delay Line as it is. -/
structure State.LineKept (s t : State) : Prop where
  path : t.inPath = true
  delay : t.delay = s.delay

/-- The part stays in the path, and no place of its Delay Line beyond the 55 newest changes. -/
structure State.LineRewritten (s t : State) : Prop where
  path : t.inPath = true
  length : t.delay.length = s.delay.length
  oldest : t.delay.drop 55 = s.delay.drop 55

section

variable {s t u : State}

theorem State.LineKept.refl (h : s.inPath = true) : s.LineKept s := ⟨h, rfl⟩

theorem State.LineKept.trans (h : s.LineKept t) (h' : t.LineKept u) : s.LineKept u := ⟨h'.path, h'.delay.trans h.delay⟩

theorem State.LineKept.rewritten (h : s.LineKept t) : s.LineRewritten t := ⟨h.path, by rw [h.delay], by rw [h.delay]⟩

theorem State.LineKept.rewritten_trans (h : s.LineKept t) (h' : t.LineRewritten u) : s.LineRewritten u :=
  ⟨h'.path, h'.length.trans (by rw [h.delay]), h'.oldest.trans (by rw [h.delay])⟩

theorem State.LineRewritten.kept_trans (h : s.LineRewritten t) (h' : t.LineKept u) : s.LineRewritten u :=
  ⟨h'.path, by rw [h'.delay, h.length], by rw [h'.delay, h.oldest]⟩

theorem State.LineKept.of_link (h : s.inPath = true) (hl : t.link.state = s.link.state) (hd : t.delay = s.delay) : s.LineKept t :=
  ⟨by rw [State.inPath, hl]; exact h, hd⟩

/-- A rewrite of at most 55 of the newest places of a line that has so many. -/
theorem State.LineRewritten.of_overwrite {xs : List Symbol} (h : s.inPath = true) (hl : t.link.state = s.link.state)
    (hd : t.delay = overwriteNewest xs s.delay) (hx : xs.length ≤ 55) (hs : s.delay.length = 64) : s.LineRewritten t :=
  ⟨by rw [State.inPath, hl]; exact h, by rw [hd, overwriteNewest_length (by omega)], by rw [hd, overwriteNewest_drop hx]⟩

/-! ### Train ends and starts, reports, strays -/

theorem State.LineKept.endTrain (h : s.inPath = true) (byTe : Bool) : s.LineKept (s.endTrain byTe) := by
  refine ⟨?_, State.endTrain_inPath_delay h byTe⟩
  have hend (v : State) (hv : v.inPath = true) : (v.trainEnd byTe).inPath = true := by
    rw [State.trainEnd_inPath hv, State.inPath]
    simpa [State.inPath] using hv
  unfold State.endTrain
  refine hend _ ?_
  repeat' split
  all_goals simpa [State.inPath] using h

theorem State.LineKept.reopenTrain (h : s.inPath = true) : s.LineKept s.reopenTrain := by
  have hended := State.LineKept.endTrain h false
  exact hended.trans (.of_link hended.path (by simp [State.reopenTrain]) (by simp [State.reopenTrain]))

theorem State.LineKept.cutRecord (h : s.inPath = true) : s.LineKept s.cutRecord := .of_link h (by simp) (by simp)

/-! ### Records -/

/-- A reaction rewrites no more than the record's own places. -/
theorem State.carryOut_delay (f : Fate) (d : DataRecord) (s : State) :
    ∃ xs, xs.length ≤ d.payload.length + 7 ∧ (s.carryOut f d).delay = overwriteNewest xs s.delay := by
  unfold State.carryOut
  split
  · exact ⟨[], Nat.zero_le _, rfl⟩
  · exact ⟨_, by simp, rfl⟩
  · exact ⟨_, by simp [DataRecord.wire, DataRecord.marked], rfl⟩
  next slot =>
    refine ⟨_, ?_, rfl⟩
    unfold State.substituteFor
    split
    next hs =>
      rw [slotServes, Bool.and_eq_true, beq_iff_eq] at hs
      simp [DataRecord.wire, DataRecord.substituted, hs.2]
    · simp [DataRecord.wire, DataRecord.marked]

theorem State.LineRewritten.completeData (h : s.inPath = true) (hs : s.delay.length = 64) {d : DataRecord}
    (hd : d.payload.length ≤ 48) : s.LineRewritten (s.completeData d) := by
  obtain ⟨xs, hxs, hdelay⟩ : ∃ xs, xs.length ≤ d.payload.length + 7 ∧ (s.completeData d).delay = overwriteNewest xs s.delay := by
    unfold State.completeData
    rw [if_pos h]
    dsimp only
    split
    · exact ⟨[], Nat.zero_le _, by simp [overwriteNewest]⟩
    · obtain ⟨xs, hxs, hx⟩ := State.carryOut_delay (((s.captureRecord d).judge d).fate ((s.captureRecord d).judgeOutcome d)) d
        ((s.captureRecord d).judge d)
      exact ⟨xs, hxs, hx.trans (by simp)⟩
  exact .of_overwrite h (by simp) hdelay (by omega) hs

theorem State.LineRewritten.completeRequest (h : s.inPath = true) (hs : s.delay.length = 64) {q : Request}
    (hq : q.operands.length ≤ 48) : s.LineRewritten (s.completeRequest q) := by
  obtain ⟨xs, hxs, hdelay⟩ : ∃ xs, xs.length ≤ 55 ∧ (s.completeRequest q).delay = overwriteNewest xs s.delay := by
    unfold State.completeRequest
    rw [if_pos h]
    have kept : ∃ xs, xs.length ≤ 55 ∧ s.delay = overwriteNewest xs s.delay := ⟨[], Nat.zero_le _, rfl⟩
    split
    · exact ⟨[], Nat.zero_le _, by simp [overwriteNewest]⟩
    · split
      · split
        next p _ _ =>
          have hpad := padTo_length_le q.operands.length (respond q.code q.operands s).data
          refine ⟨_, ?_, by rw [State.answer, State.rewriteRecord]; simp; rfl⟩
          simp [replyRecord]
          omega
        · exact kept
      · exact kept
  exact .of_overwrite h (by simp) hdelay hxs hs

theorem State.LineRewritten.deliver (h : s.inPath = true) (hs : s.delay.length = 64) {r : RecordProgress} (hr : r.length ≤ 48) :
    s.LineRewritten (s.deliver r) := by
  have hp : r.payload.length ≤ 48 := r.payload_length_le.trans hr
  have kept : s.LineRewritten s := (State.LineKept.refl h).rewritten
  unfold State.deliver
  split
  · exact .completeData h hs hp
  · exact .completeRequest h hs hp
  · exact kept
  · exact kept

/-- A byte inside a record, which rewrites the line only as the record's last. -/
theorem State.takeRecordByte_line (h : s.inPath = true) (hs : s.delay.length = 64) {r : RecordProgress}
    (hr : r.bytes ≠ [] → r.length ≤ 48) (b : Byte) (err : Bool) :
    s.LineRewritten (s.takeRecordByte r b err) ∧
      ((r.bytes.length = r.length + 5 → err = true) → s.LineKept (s.takeRecordByte r b err)) := by
  have placed (p : ParsePosition) : s.LineKept (s.breakRun.setPosition p) := .of_link h (by simp) (by simp)
  have damaged : s.LineKept s.breakRun.damagedRecord := .of_link h (by simp [State.damagedRecord]) (by simp)
  unfold State.takeRecordByte State.takeLength State.finishRecord
  dsimp only
  split
  · have hkept : s.LineKept (if (err || decide (Config.maxPayload < b.toNat)) = true then s.breakRun.damagedRecord.setPosition .skip
        else s.breakRun.setPosition (.record { r with bytes := [b], check := checkByte r.check b })) := by
      split
      · exact damaged.trans (.of_link damaged.path (by simp) (by simp))
      · exact placed _
    exact ⟨hkept.rewritten, fun _ => hkept⟩
  next hne =>
    have hlen : (r.take b err).length = r.length := RecordProgress.take_length (by simpa using hne) b err
    have hbytes : (r.take b err).bytes.length = r.bytes.length + 1 := by simp [RecordProgress.take]
    split
    next hlast =>
      have hbad : s.LineKept (s.breakRun.setPosition .body).damagedRecord :=
        (placed .body).trans (.of_link (placed .body).path (by simp [State.damagedRecord]) (by simp))
      split
      next hvalid =>
        refine ⟨(placed .body).rewritten_trans (.deliver (placed .body).path (by simpa using hs) ?_), fun herr => ?_⟩
        · rw [hlen]
          exact hr (by simpa using hne)
        · have he : err = true := herr (by omega)
          rw [he] at hvalid
          simp [RecordProgress.valid, RecordProgress.take] at hvalid
      · exact ⟨hbad.rewritten, fun _ => hbad⟩
    · exact ⟨(placed _).rewritten, fun _ => placed _⟩

/-! ### The notice and the claim -/

theorem State.LineRewritten.bodyFill (h : s.inPath = true) (hs : s.delay.length = 64) :
    s.LineRewritten s.bodyFill ∧
      (¬ (s.alert.noticeWaiting = true ∧ 11 ≤ s.alert.noticeRun) → s.LineKept s.bodyFill) := by
  have hext : s.LineKept s.extendRun := .of_link h (by simp) (by simp)
  have hrun : s.extendRun.alert.noticeRun = min 12 (s.alert.noticeRun + 1) := by
    unfold State.extendRun
    rw [if_pos h]
    rfl
  have hwait : s.extendRun.alert.noticeWaiting = s.alert.noticeWaiting := by
    unfold State.extendRun
    rw [if_pos h]
  unfold State.bodyFill State.placeNotice
  split
  next hn =>
    simp only [Bool.and_eq_true, decide_eq_true_eq] at hn
    refine ⟨?_, fun hno => absurd ⟨hwait ▸ hn.1.2, ?_⟩ hno⟩
    · exact hext.rewritten_trans (.of_overwrite (xs := s.extendRun.noticeRecord.symbols) hext.path rfl rfl (by simp [State.noticeRecord])
        (by simpa using hs))
    · have h12 : min 12 (s.alert.noticeRun + 1) = 12 := hrun.symm.trans hn.2
      omega
  · exact ⟨hext.rewritten, fun _ => hext⟩

theorem State.LineRewritten.headerRead (h : s.inPath = true) (hn : s.framer.slotCount ≤ 31) :
    s.LineRewritten s.headerRead := by
  unfold State.headerRead
  dsimp only
  rw [if_pos (by exact h)]
  unfold State.claimSlot
  split
  next k _ =>
    refine ⟨h, by simp, ?_⟩
    dsimp only
    rw [List.drop_set, if_pos (by omega)]
  · exact (State.LineKept.of_link h (by simp) (by simp)).rewritten

/-! ### One symbol -/

/-- What changes more of the line than its newest place (R7, R18, R143). -/
def State.rewritesLine (s : State) (x : Symbol) : Prop :=
  (s.framer.position = .status s.framer.slotCount ∧ ∃ b, x = .data b) ∨
    (∃ r b, s.framer.position = .record r ∧ x = .data b ∧ r.bytes.length = r.length + 5) ∨
    (x = .fill ∧ s.framer.position = .body ∧ s.alert.noticeWaiting = true ∧ 11 ≤ s.alert.noticeRun)

theorem State.takeBody_line (h : s.inPath = true) (hs : s.delay.length = 64) (x : Symbol) :
    s.LineRewritten (s.takeBody x) ∧
      (¬ (x = .fill ∧ s.alert.noticeWaiting = true ∧ 11 ≤ s.alert.noticeRun) → s.LineKept (s.takeBody x)) := by
  have kept {t : State} (ht : s.LineKept t) : s.LineRewritten t ∧ (¬ (x = .fill ∧ s.alert.noticeWaiting = true ∧ 11 ≤ s.alert.noticeRun) →
      s.LineKept t) := ⟨ht.rewritten, fun _ => ht⟩
  cases x
  case fill =>
    obtain ⟨hr, hk⟩ := State.LineRewritten.bodyFill h hs
    exact ⟨hr, fun hno => hk fun hc => hno ⟨rfl, hc⟩⟩
  case md | mq | ma | mn => exact kept (t := s.openRecord _) (.of_link h (by simp) (by simp))
  case data | err => exact kept (t := s.strayInBody) (.of_link h (by simp) (by simp))
  case te => exact kept (.endTrain h true)
  case ta => exact kept (.endTrain h false)
  case ts => exact kept (.reopenTrain h)

theorem State.LineKept.takeUnexpected (h : s.inPath = true) (x : Symbol) : s.LineKept (s.takeUnexpected x) := by
  unfold State.takeUnexpected
  split
  · exact .endTrain h true
  · exact .endTrain h false
  · exact .reopenTrain h
  · exact .of_link h (by simp) (by simp)

/-- A symbol taken in the path: the line as it is but for the three rewrites, and the 9 oldest places always. -/
theorem State.takeSymbol_line (h : s.PlacedParts 1 2049) (hi : s.inPath = true) (x : Symbol) :
    s.LineRewritten (s.takeSymbol x) ∧ (¬ s.rewritesLine x → s.LineKept (s.takeSymbol x)) := by
  have hs := h.seated.line hi
  have hc := h.counts
  have kept {t : State} (ht : s.LineKept t) : s.LineRewritten t ∧ (¬ s.rewritesLine x → s.LineKept t) := ⟨ht.rewritten, fun _ => ht⟩
  unfold Framer.counts at hc
  unfold State.takeSymbol
  cases hp : s.framer.position <;> rw [hp] at hc <;> dsimp only at hc ⊢
  case outside =>
    refine kept ?_
    unfold State.takeOutside
    split
    · exact .refl hi
    · exact .of_link hi (by simp) (by simp)
    · exact ⟨by simpa [State.inPath] using hi, by simp⟩
  case header due =>
    refine kept ?_
    unfold State.takeHeader
    split
    · exact .of_link hi rfl rfl
    · exact .takeUnexpected hi x
  case status due =>
    unfold State.takeStatus State.takeStatusByte
    split
    next b =>
      dsimp only
      split
      · exact kept (.of_link hi (by simp) (by simp))
      next hlast =>
        have hdue : due = s.framer.slotCount := by omega
        refine ⟨?_, fun hno => absurd (.inl ⟨by rw [hp, hdue], b, rfl⟩) hno⟩
        have hread := State.LineRewritten.headerRead
          (s := { s with framer := { s.framer with statusBytes := s.framer.statusBytes ++ [b], position := .body } }) hi
          (by show s.framer.slotCount ≤ 31; omega)
        exact ⟨hread.path, hread.length, hread.oldest⟩
    · exact kept (.takeUnexpected hi x)
  case body =>
    obtain ⟨hr, hk⟩ := State.takeBody_line hi hs x
    exact ⟨hr, fun hno => hk fun ⟨hx, hn⟩ => hno (.inr (.inr ⟨hx, hp, hn⟩))⟩
  case record r =>
    have hlen : r.bytes ≠ [] → r.length ≤ 48 := fun hne => (hc.2.2 hne).1
    unfold State.takeRecord
    split
    next b =>
      obtain ⟨hr, hk⟩ := State.takeRecordByte_line hi hs hlen b false
      exact ⟨hr, fun hno => hk fun hl => absurd (.inr (.inl ⟨r, b, hp, rfl, hl⟩)) hno⟩
    · exact kept ((State.takeRecordByte_line hi hs hlen 0#8 true).2 fun _ => rfl)
    · have hcut := State.LineKept.cutRecord hi
      have hrun := h.run_zero (by rw [hp]; nofun)
      have hno : ¬ (x = .fill ∧ s.cutRecord.alert.noticeWaiting = true ∧ 11 ≤ s.cutRecord.alert.noticeRun) := by
        have : s.cutRecord.alert.noticeRun = 0 := by simpa using hrun
        omega
      exact kept (hcut.trans ((State.takeBody_line hcut.path (by rw [hcut.delay]; exact hs) x).2 hno))
  case skip =>
    unfold State.takeSkip
    split
    · exact kept (.of_link hi rfl rfl)
    · exact kept (.of_link hi rfl rfl)
    · have hbody : s.LineKept (s.setPosition .body) := .of_link hi (by simp) (by simp)
      have hrun := h.run_zero (by rw [hp]; nofun)
      have hno : ¬ (x = .fill ∧ (s.setPosition .body).alert.noticeWaiting = true ∧ 11 ≤ (s.setPosition .body).alert.noticeRun) := by
        have : (s.setPosition .body).alert.noticeRun = 0 := by simpa using hrun
        omega
      exact kept (hbody.trans ((State.takeBody_line hbody.path (by rw [hbody.delay]; exact hs) x).2 hno))
  case unread =>
    refine kept ?_
    unfold State.takeUnread
    split
    · split
      · exact .of_link hi rfl rfl
      · exact .refl hi
    · exact .takeUnexpected hi x

theorem State.LineKept.limitIfDue (h : s.inPath = true) : s.LineKept s.limitIfDue := by
  unfold State.limitIfDue State.limitBreak
  split
  · split
    · have hcut := State.LineKept.cutRecord h
      exact hcut.trans (.endTrain hcut.path false)
    · exact .endTrain h false
  · exact .refl h

end

/-! ### One arrival -/

/-- The line's move and the Framer's count, as the statements write them. -/
theorem State.heard_eq_afterArrival (s : State) (x : LineSymbol) :
    ({ (s.quiet.moveLine x) with framer := s.quiet.framer.hear } : State) = s.afterArrival x := by
  unfold State.moveLine State.afterArrival Framer.hear State.quiet
  have hp := Framer.trainOpen_iff s.framer
  by_cases ho : s.framer.position = .outside
  · have : s.framer.trainOpen = false := by rw [← Bool.not_eq_true, hp]; simpa using ho
    cases h1 : s.link.draining <;> cases h2 : s.inPath <;>
      simp_all [State.emit, State.inPath, Option.toList_map]
  · have := hp.2 ho
    cases h1 : s.link.draining <;> cases h2 : s.inPath <;>
      simp_all [State.emit, State.inPath, Option.toList_map]

theorem State.PlacedParts.afterArrival {s : State} (h : s.PlacedParts 0 2048) (x : LineSymbol) : (s.afterArrival x).PlacedParts 1 2049 := by
  rw [← State.heard_eq_afterArrival]
  exact State.PlacedParts.heard (s := s.quiet) (h.same (by simp)) x

/-- The line after it has moved for an arrival in the path. -/
theorem State.afterArrival_inPath {s : State} (hi : s.inPath = true) (hd : s.link.draining = false) (x : LineSymbol) {oldest : Symbol}
    {rest : List Symbol} (hr : s.delay = rest ++ [oldest]) :
    (s.afterArrival x).delay = x.taken :: rest ∧ (s.afterArrival x).dn = [.readable oldest] := by
  unfold State.afterArrival
  simp [hi, hd, hr]

/-- A part in the path after an arrival: still there, or HELD with an empty line. -/
theorem State.leaveIfDue_inPath {s : State} (h : s.inPath = true) :
    s.leaveIfDue = s ∧ s.link.state ≠ .held ∨ s.leaveIfDue.link.state = .held ∧ s.leaveIfDue.delay = [] := by
  unfold State.leaveIfDue
  split
  · exact .inr ⟨rfl, rfl⟩
  · exact .inl ⟨rfl, fun hs => by rw [State.inPath, hs] at h; cases h⟩

/-- Settles O36: the line moves, the Framer's symbol rewrites only its own places, and a leave drops the line. -/
theorem anArrivalInThePathMovesTheDelayLine : Obligations.AnArrivalInThePathMovesTheDelayLine := by
  unfold Obligations.AnArrivalInThePathMovesTheDelayLine
  intro x s oldest rest hlaw hr hi hdelay readsHeader placesNotice
  have hplaced := (State.placed_iff s).1 hlaw.2.2.1
  have hdrain := hplaced.seated.link.exclusive hi
  obtain ⟨hline, hdn⟩ := State.afterArrival_inPath hi hdrain x hdelay
  have hafter := hplaced.afterArrival x
  have hi' : (s.afterArrival x).inPath = true := hi
  refine ⟨⟨s.quiet.arrive x, rfl, ?_⟩, fun hx => by rw [hx]; rfl, fun y hx => by rw [hx]; rfl, fun hx ho hs => ?_⟩
  · obtain ⟨hrewritten, hkept⟩ := State.takeSymbol_line hafter hi' x.taken
    have hlim := State.LineKept.limitIfDue hrewritten.path
    have hall := hrewritten.kept_trans hlim
    rw [State.arrive_running x hr]
    refine ⟨by simpa using hdn, ?_⟩
    rcases State.leaveIfDue_inPath hall.path with ⟨hstay, hnot⟩ | ⟨hheld, hnone⟩
    · rw [hstay]
      refine ⟨fun hh => absurd hh hnot, fun _ => ⟨?_, ?_⟩, fun _ hread hrec hnotice => ?_⟩
      · rw [hall.length]
        exact hafter.seated.line hi'
      · rw [hall.oldest, hline]
      · have hno : ¬ (s.afterArrival x).rewritesLine x.taken := by
          rintro (hh | ⟨r, b, hp, hb, hl⟩ | hh)
          · exact hread hh
          · have hp' : s.framer.position = .record r := hp
            rw [State.completesRecord, hp', hb, decide_eq_false_iff_not] at hrec
            exact hrec hl
          · exact hnotice hh
        rw [hlim.delay, (hkept hno).delay, hline]
    · exact ⟨fun _ => hnone, fun hh => absurd hheld hh, fun hh => absurd hheld hh⟩
  · have htake : (s.afterArrival x).takeSymbol x.taken = s.afterArrival x := by
      have ho' : (s.afterArrival x).framer.position = .outside := ho
      unfold State.takeSymbol
      rw [ho', hx]
      rfl
    have hstate : (s.afterArrival x).link.state ≠ .leaveWait := by
      show s.link.state ≠ _
      rw [hs]
      nofun
    refine congrArg Host.Outcome.next ?_
    rw [State.arrive_betweenTrains hr htake ho, State.leaveIfDue_none (.inl hstate)]
    rw [hx] at hline
    rw [← hline, ← hdn]
    unfold State.afterArrival
    simp [ho]

end Sys2Proof.Machine
end

section
/-! PROOF. Train starts and header reads: what opens a train, and what its header bytes and status bytes leave (R5, R13, R14, R15, R39, R40). -/

namespace Sys2Proof.Machine

section

variable {s t : State} {x : LineSymbol}

/-! ### Symbols that end a train -/

/-- The part as the end of a train finds it: an open record cut, a passage over a bad record over (R17, R19). -/
def State.cutShort (s : State) : State :=
  match s.framer.position with
  | .record _ => s.cutRecord
  | .skip => s.setPosition .body
  | _ => s

@[simp] theorem State.cutShort_frame (s : State) :
    s.cutShort.link = s.link ∧ s.cutShort.op = s.op ∧ s.cutShort.framer.signal = s.framer.signal ∧
      s.cutShort.framer.silence = s.framer.silence := by
  unfold State.cutShort
  split <;> simp

theorem State.takeSymbol_ta (h : s.framer.position ≠ .outside) : s.takeSymbol .ta = s.cutShort.endTrain false := by
  unfold State.takeSymbol State.cutShort
  cases hp : s.framer.position
  case outside => exact absurd hp h
  all_goals rfl

/-- A TS opens a train, after the end of one that is open (R13). -/
theorem State.takeSymbol_ts (s : State) :
    s.takeSymbol .ts = if s.framer.position = .outside then s.openTrain else s.cutShort.reopenTrain := by
  unfold State.takeSymbol State.cutShort
  cases s.framer.position <;> rfl

/-! ### Train starts -/

/-- The train's number of symbols does not end it at its first. -/
theorem State.openTrain_opened (s : State) : s.openTrain.framer = s.framer.opened ∧ s.openTrain.position = none ∧
    s.openTrain.alert.noticeRun = 0 := by
  simp [State.openTrain, State.clearTrainMarks]

theorem State.inPath_openTrain (s : State) : s.openTrain.inPath = s.inPath := by simp [State.inPath]

/-- After an abort the slot is idle. -/
theorem State.abortOperation_idle (s : State) : s.abortOperation.op.slot = .idle := by
  rw [State.abortOperation_eq]
  split
  next h => exact h
  · simp [State.operationEnded]

/-- No AT-TRAIN abort outlasts a train start in the path (R181). -/
theorem State.openTrain_noAbort (h : s.inPath = true) :
    s.openTrain.op.pendingAbort ≠ .atTrain ∨ s.openTrain.op.slot = .idle := by
  unfold State.openTrain State.trainAbort
  split
  · exact .inr (State.abortOperation_idle _)
  next hno => exact .inl fun ha => hno (Bool.and_eq_true_iff.2 ⟨h, beq_iff_eq.2 ha⟩)

/-- An arrival of TS while the part runs comes to the opening of a train. -/
theorem State.arrive_ts (h : s.running = true) :
    ∃ v : State, s.quiet.arrive (.readable .ts) = v.openTrain ∧ v.framer.signal = .present ∧ v.framer.silence = 0 := by
  obtain ⟨v, hv, hsignal, hsilence⟩ : ∃ v : State, (s.afterArrival (.readable .ts)).takeSymbol .ts = v.openTrain ∧
      v.framer.signal = .present ∧ v.framer.silence = 0 := by
    rw [State.takeSymbol_ts]
    split
    · exact ⟨_, rfl, rfl, rfl⟩
    · refine ⟨(s.afterArrival (.readable .ts)).cutShort.endTrain false, rfl, ?_, ?_⟩
      · rw [(State.endTrain_frame _ _).2.2.2.2.2.2.2.2.1, (State.cutShort_frame _).2.2.1]; rfl
      · simp [State.afterArrival]
  have hopened := (State.openTrain_opened v).1
  exact ⟨v, State.arrive_inTrain h hv (by rw [hopened]; nofun) (by rw [hopened]; nofun), hsignal, hsilence⟩

/-- Settles O37: by whether a train is open, through what an opening leaves. -/
theorem aTrainStartOpensATrain : Obligations.ATrainStartOpensATrain := by
  unfold Obligations.ATrainStartOpensATrain
  intro s hr opened
  obtain ⟨v, hv, hsignal, hsilence⟩ := State.arrive_ts hr
  refine ⟨fun hp => ?_, ⟨_, congrArg Host.Outcome.next hv, ?_, (State.openTrain_opened v).2.1, (State.openTrain_opened v).2.2, fun hi _ => ?_⟩⟩
  · intro a u
    have hopen : a.takeSymbol .ts = u.trainAbort := by rw [State.takeSymbol_ts, if_pos (by exact hp)]; rfl
    have hframer : u.trainAbort.framer = opened s.framer := (State.trainAbort_frame u).2.2.2.2.1
    refine congrArg Host.Outcome.next ((State.arrive_inTrain hr hopen (by rw [hframer]; nofun) (by rw [hframer]; nofun)).trans ?_)
    rw [State.trainAbort, State.abortOperation_eq]
    have hu : (u.inPath && u.op.pendingAbort == .atTrain) = (s.inPath && s.op.pendingAbort == .atTrain) := rfl
    rw [hu, show u.op.slot = s.op.slot from rfl]
    by_cases hact : s.inPath = true ∧ s.op.pendingAbort = .atTrain
    · rw [if_pos (by simpa using hact)]
      by_cases hidle : s.op.slot = .idle
      · rw [if_pos hidle, if_neg fun hc => hc.2.2 hidle]
      · rw [if_neg hidle, if_pos ⟨hact.1, hact.2, hidle⟩]
    · rw [if_neg (by simpa using hact), if_neg fun hc => hact ⟨hc.1, hc.2.1⟩]
  · rw [(State.openTrain_opened v).1]
    simp [Framer.opened, opened, hsignal, hsilence]
  · exact State.openTrain_noAbort ((State.inPath_openTrain v).symm.trans hi)

/-! ### Header bytes and status bytes -/

/-- Below the limit, an arrival that leaves the train open is the Framer's taking of the symbol alone. -/
theorem exec_inTrain (h : s.running = true) (hp : s.framer.position ≠ .outside) (hc : s.framer.symbolCount < 2047)
    (ht : (s.afterArrival x).takeSymbol x.taken = t) (ho : t.framer.position ≠ .outside)
    (hn : t.framer.symbolCount = (s.afterArrival x).framer.symbolCount) : exec (.symbolArrival x) s = .next t := by
  have hcount : (s.afterArrival x).framer.symbolCount = s.framer.symbolCount + 1 := if_neg hp
  exact congrArg _ (State.arrive_inTrain h ht ho (by omega))

/-- The Framer's taking of a symbol at a known parse position. -/
theorem State.takeSymbol_at {p : ParsePosition} (h : s.framer.position = p) (y : Symbol) :
    s.takeSymbol y =
      (match (generalizing := false) p with
        | .outside => s.takeOutside y
        | .header due => s.takeHeader due y
        | .status due => s.takeStatus due y
        | .body => s.takeBody y
        | .record r => s.takeRecord r y
        | .skip => s.takeSkip y
        | .unread => s.takeUnread y) := by
  rw [State.takeSymbol, h] <;> cases p <;> rfl

/-- What is no byte, and ends no train, makes a train unreadable where a byte is due (R14). -/
theorem State.takeUnexpected_unread {y : Symbol} (h : y ∈ [Symbol.fill, .err, .md, .mq, .ma, .mn]) (s : State) :
    s.takeUnexpected y = s.setPosition .unread ∧ ∀ b, y ≠ .data b := by
  simp only [List.mem_cons, List.not_mem_nil, or_false] at h
  rcases h with rfl | rfl | rfl | rfl | rfl | rfl <;> exact ⟨rfl, nofun⟩

/-- The status byte as a sum: its bits do not overlap (R187). -/
theorem State.statusByte_eq (s : State) :
    let bit := fun (x : Bool) (k : Nat) => if x = true then 2 ^ k else 0
    s.statusByte = BitVec.ofNat 8
      (bit (!s.queue.items.isEmpty) 0 + bit (if s.op.slot = .idle then false else true) 1 + bit s.reaction.isolated 2 +
        bit s.alert.flags.link 3 + bit s.alert.flags.stale 4 + bit s.alert.flags.trip 5 + bit s.alert.alertn 6) := by
  intro bit
  have join : ∀ a t s l i o q : Bool, bitAt a 6 ||| bitAt t 5 ||| bitAt s 4 ||| bitAt l 3 ||| bitAt i 2 ||| bitAt o 1 ||| bitAt q 0 =
      BitVec.ofNat 8 (bit q 0 + bit o 1 + bit i 2 + bit l 3 + bit s 4 + bit t 5 + bit a 6) := by decide
  have hidle : (!s.op.slot.isIdle) = if s.op.slot = .idle then false else true := by cases s.op.slot <;> rfl
  rw [← hidle]
  exact join ..

/-- The first place of 255 among the status bytes. -/
theorem firstEmptySlot_some {bytes : List Byte} {k : Nat} (hk : bytes[k]? = some 255#8) (hfirst : ∀ j, j < k → bytes[j]? ≠ some 255#8) :
    firstEmptySlot bytes = some k := by
  obtain ⟨hlt, hget⟩ := List.getElem?_eq_some_iff.1 hk
  refine List.findIdx?_eq_some_iff_getElem.2 ⟨hlt, by simpa using hget, fun j hj => ?_⟩
  have := hfirst j hj
  rw [List.getElem?_eq_getElem (by omega)] at this
  simpa using this

theorem firstEmptySlot_none {bytes : List Byte} (h : 255#8 ∉ bytes) : firstEmptySlot bytes = none := by
  refine List.findIdx?_eq_none_iff.2 fun b hb => ?_
  simpa using fun hc : b = 255#8 => h (hc ▸ hb)

/-- Settles O38: byte by byte up to the last status byte, then that one by whether the part is in the path. -/
theorem theHeaderReadClaimsASlot : Obligations.TheHeaderReadClaimsASlot := by
  unfold Obligations.TheHeaderReadClaimsASlot
  refine ⟨fun x s hr hc => ?_, fun b s n hr hp hn hc => ?_⟩
  · intro a becomes unreadable
    have hout {p : ParsePosition} (hp : s.framer.position = p) (hne : p ≠ .outside) : s.framer.position ≠ .outside := hp ▸ hne
    have becomes_of {f : Framer} {p : ParsePosition} (hp : s.framer.position = p) (hne : p ≠ .outside)
        (ht : a.takeSymbol x.taken = { a with framer := f }) (ho : f.position ≠ .outside)
        (hcount : f.symbolCount = a.framer.symbolCount) : becomes f := exec_inTrain hr (hout hp hne) hc ht ho hcount
    have taken {p : ParsePosition} (hp : s.framer.position = p) := State.takeSymbol_at (s := a) hp
    refine ⟨fun b hx => ⟨fun hp => ⟨fun hb => ?_, fun hb => ?_⟩, fun hp => ?_, fun hp => ?_, fun n hp hn => ?_, fun hp => ?_⟩,
      fun hx => ⟨fun n hp => ?_, fun hp => ?_⟩⟩
    · refine becomes_of hp nofun ?_ nofun rfl
      rw [hx, taken hp]
      exact congrArg (fun f => ({ a with framer := f } : State)) (by rw [Framer.takeHeaderByte, if_pos rfl, if_pos hb])
    · refine becomes_of hp nofun ?_ nofun rfl
      rw [hx, taken hp]
      exact congrArg (fun f => ({ a with framer := f } : State)) (by rw [Framer.takeHeaderByte, if_pos rfl, if_neg (by omega)])
    · refine becomes_of hp nofun ?_ nofun rfl
      rw [hx, taken hp]
      rfl
    · refine becomes_of hp nofun ?_ nofun rfl
      rw [hx, taken hp]
      rfl
    · refine becomes_of hp nofun ?_ nofun rfl
      rw [hx, taken hp]
      exact if_pos hn
    · refine becomes_of hp nofun ?_ (by rw [show a.framer.position = _ from hp]; nofun) rfl
      have hcount : a.framer.symbolCount = s.framer.symbolCount + 1 := if_neg (hout hp nofun)
      rw [hx, taken hp]
      show (if a.framer.symbolCount = 4 then _ else _) = _
      rw [hcount]
      by_cases h3 : s.framer.symbolCount = 3
      · rw [if_pos (by omega), if_pos h3]
      · rw [if_neg (by omega), if_neg h3]; rfl
    · obtain ⟨hun, hbyte⟩ := State.takeUnexpected_unread hx a
      have hne : s.framer.position ≠ .outside := by rcases hp with hp | hp <;> rw [hp] <;> nofun
      refine exec_inTrain hr hne hc ?_ nofun rfl
      rcases hp with hp | hp
      · rw [taken hp]
        show a.takeHeader n x.taken = _
        unfold State.takeHeader
        split
        next b hb => exact absurd hb (hbyte b)
        · exact hun
      · rw [taken hp]
        show a.takeStatus n x.taken = _
        unfold State.takeStatus
        split
        next b hb => exact absurd hb (hbyte b)
        · exact hun
    · obtain ⟨hun, hbyte⟩ := State.takeUnexpected_unread hx a
      refine becomes_of hp nofun ?_ (by rw [show a.framer.position = _ from hp]; nofun) rfl
      rw [taken hp]
      show a.takeUnread x.taken = _
      unfold State.takeUnread
      split
      next b hb => exact absurd hb (hbyte b)
      · rw [hun, State.setPosition, ← show a.framer.position = .unread from hp]
  · intro bytes a u bit status
    have hread : a.takeSymbol (.data b) = if s.inPath = true then u.claimSlot else u.takeJoinFlag := by
      have ha : a.framer.position = .status n := hp
      rw [State.takeSymbol, ha]
      exact if_neg (by show ¬ n < s.framer.slotCount; omega)
    have hstatus : u.statusByte = status := State.statusByte_eq u
    have reads {t : State} (ht : a.takeSymbol (.data b) = t) (hf : t.framer = u.framer) :
        exec (.symbolArrival (.readable (.data b))) s = .next t :=
      exec_inTrain hr (by rw [hp]; nofun) hc ht (by rw [hf]; nofun) (by rw [hf])
    refine ⟨fun hi => ⟨fun k hk hfirst => reads ?_ rfl, fun hfull => reads ?_ (by simp)⟩, fun hi => reads ?_ ?_⟩
    · rw [hread, if_pos hi, State.claimSlot]
      have hslot : firstEmptySlot u.framer.statusBytes = some k := firstEmptySlot_some hk hfirst
      rw [hslot, hstatus, show u.framer.slotCount = n from hn]
    · rw [hread, if_pos hi, State.claimSlot]
      have hslot : firstEmptySlot u.framer.statusBytes = none := firstEmptySlot_none hfull
      rw [hslot]
    · rw [hread, if_neg (by rw [hi]; nofun), State.takeJoinFlag]
      have hjoin : u.framer.joinFlag = s.framer.flags.getLsbD 2 := rfl
      rw [hjoin, show u.link.state = s.link.state from rfl]
      by_cases hcall : s.link.state = .held ∧ s.framer.flags.getLsbD 2 = true
      · rw [if_pos (by simpa using hcall), if_pos hcall]; rfl
      · rw [if_neg (by simpa using hcall), if_neg hcall]
    · split <;> rfl

end

end Sys2Proof.Machine
end

section
/-! PROOF. What the Framer reports of a train's body, and the notice placed in it (R16 to R20, R22, R142, R143). -/

namespace Sys2Proof.Machine

section

variable {s t : State} {x : LineSymbol}

/-! ### A report looks at the path, the alerts, the queue and the train's number (R22) -/

@[simp] theorem State.afterFault_framer (c : Nat) (s : State) : (s.afterFault c).framer = s.framer :=
  (State.reportInPath_frame c s).2.2.2.2.1

@[simp] theorem State.afterFault_link (c : Nat) (s : State) : (s.afterFault c).link = s.link :=
  (State.reportInPath_frame c s).2.2.2.2.2.1

/-- Two parts that agree on these are changed by a report alike, and in the alerts and the queue alone. -/
theorem State.afterFault_same (hi : t.inPath = s.inPath) (ha : t.alert = s.alert) (hq : t.queue = s.queue)
    (hn : t.framer.sequence = s.framer.sequence) (c : Nat) :
    t.afterFault c = { t with alert := (s.afterFault c).alert, queue := (s.afterFault c).queue } := by
  unfold State.afterFault State.pushIncident State.raise
  rw [hi, ha, hq, hn]
  split
  · split <;> rfl
  · rw [← ha, ← hq]

theorem AlertUnit.raise_noticeRun (f : Factor) (a : AlertUnit) (n : Nat) :
    AlertUnit.raise f { a with noticeRun := n } = { a.raise f with noticeRun := n } := by
  unfold AlertUnit.raise AlertUnit.rise
  dsimp only
  split
  · rfl
  · split <;> rfl

/-- A report and the end of the notice run do not meet. -/
theorem State.afterFault_breakRun (c : Nat) (s : State) : (s.afterFault c).breakRun = s.breakRun.afterFault c := by
  unfold State.afterFault State.pushIncident State.raise State.breakRun
  rw [AlertUnit.raise_noticeRun .link s.alert 0, AlertUnit.raise_noticeRun .qfull (s.alert.raise .link) 0,
    show State.inPath { s with alert := { s.alert with noticeRun := 0 } } = s.inPath from rfl]
  split
  · split <;> rfl
  · rfl

/-! ### Stray symbols -/

/-- Settles O39: in the body through the stray symbol's own report, outside through that and a link that cannot leave at it. -/
theorem aStraySymbolIsReportedOnce : Obligations.AStraySymbolIsReportedOnce := by
  unfold Obligations.AStraySymbolIsReportedOnce
  intro x s hl hr a u reported
  obtain ⟨-, -, hplaced, -⟩ := hl
  have hframer (v : State) : (reported v).framer = v.framer := by
    show (if s.framer.strayReported = true then v else v.afterFault 2).framer = _
    split <;> simp
  refine ⟨fun hp hx hc => ?_, fun hp hfill hts => ?_⟩
  · have hstray : a.takeSymbol x.taken = a.strayInBody := by
      rw [State.takeSymbol_at (s := a) hp]
      rcases hx with hx | ⟨b, hx⟩ <;> rw [hx] <;> rfl
    have hbody : a.strayInBody =
        { reported u with framer := { (reported u).framer with trainFaulted := true, strayReported := true } } := rfl
    rw [hframer] at hbody
    exact exec_inTrain hr (by rw [hp]; nofun) hc (hstray.trans hbody) (by show s.framer.position ≠ _; rw [hp]; nofun) rfl
  · have hstray : a.takeSymbol x.taken = a.strayOutside := by
      rw [State.takeSymbol_at (s := a) hp]
      show a.takeOutside x.taken = _
      unfold State.takeOutside
      split
      next h => exact absurd h hfill
      next h => exact absurd h hts
      · rfl
    have houtside : a.strayOutside =
        { reported a with framer := { (reported a).framer with strayReported := true }, link := (reported a).link.stray } := rfl
    have hlink : (reported a).link = s.link := by
      show (if s.framer.strayReported = true then a else a.afterFault 2).link = _
      split
      · rfl
      · exact State.afterFault_link 2 a
    rw [hframer, hlink] at houtside
    have hstays : a.strayOutside.leaveIfDue = a.strayOutside := by
      refine State.leaveIfDue_none ?_
      by_cases hleave : s.link.state = .leaveWait
      · refine .inr (.inr fun hd => hfill ?_)
        have hi : s.inPath = true := by rw [State.inPath, hleave]; rfl
        have hline : a.strayOutside.delay = x.taken :: s.delay.dropLast := by
          rw [(State.strayOutside_frame a).2.2.2.2.2.1]
          exact if_pos ⟨((State.placed_iff s).1 hplaced).seated.link.exclusive hi, hi⟩
        exact (List.cons.inj (hline.symm.trans hd)).1
      · refine .inl fun hs => hleave ?_
        rw [houtside] at hs
        revert hs
        show s.link.stray.state = _ → _
        unfold Link.stray
        split
        · exact id
        · nofun
        · exact id
    refine congrArg Host.Outcome.next ((State.arrive_betweenTrains hr hstray ?_).trans (hstays.trans houtside))
    rw [houtside]
    exact hp

/-! ### Damaged and cut records -/

/-- A report of a damaged record and the parse position after it. -/
theorem State.damagedRecord_eq (p : ParsePosition) (s : State) :
    (s.setPosition p).damagedRecord = { s.afterFault 1 with framer := { s.framer with trainFaulted := true, position := p } } := by
  have h1 : (s.setPosition p).reportInPath 1 = _ := State.afterFault_same (s := s) (t := s.setPosition p) rfl rfl rfl rfl 1
  have h2 : s.afterFault 1 = _ := State.afterFault_same (s := s) rfl rfl rfl rfl 1
  rw [State.damagedRecord, h1, h2]
  rfl

/-- The same where the parse position moves on after the report. -/
theorem State.damagedRecord_at (p q : ParsePosition) (s : State) :
    (s.setPosition q).damagedRecord.setPosition p =
      { s.afterFault 1 with framer := { s.framer with trainFaulted := true, position := p } } := by
  rw [State.damagedRecord_eq]
  rfl

/-- A record that is not valid comes to a damaged record at its last byte (R17). -/
theorem State.takeRecordByte_damaged {r : RecordProgress} {b : Byte} {err : Bool} (hlast : r.bytes.length = r.length + 5)
    (hbad : (r.take b err).valid = false) (s : State) :
    s.takeRecordByte r b err =
      { s.breakRun.afterFault 1 with framer := { s.framer with trainFaulted := true, position := .body } } := by
  have hne : r.bytes.isEmpty = false := by
    cases hb : r.bytes
    · rw [hb] at hlast; simp at hlast
    · rfl
  have hfull : (r.take b err).bytes.length = (r.take b err).length + 6 := by
    rw [RecordProgress.take_length hne, RecordProgress.take, List.length_append, hlast]
    rfl
  unfold State.takeRecordByte
  dsimp only
  rw [if_neg (by rw [hne]; nofun), if_pos hfull, State.finishRecord,
    if_neg (by rw [hbad]; nofun)]
  exact State.damagedRecord_eq .body s.breakRun

/-- The check bytes of a record at its last byte. -/
theorem RecordProgress.take_check {r : RecordProgress} (hlast : r.bytes.length = r.length + 5) (b : Byte) :
    (r.take b false).check = r.check ∧ (r.take b false).receivedCheck = r.bytes.getD (r.length + 4) 0#8 ++ b := by
  have hne : r.bytes.isEmpty = false := by
    cases hb : r.bytes
    · rw [hb] at hlast; simp at hlast
    · rfl
  refine ⟨if_neg (by omega), ?_⟩
  rw [RecordProgress.receivedCheck, RecordProgress.take_length hne]
  show wordOf ((r.bytes ++ [b]).getD _ _) ((r.bytes ++ [b]).getD _ _) = _
  rw [List.getD_append _ _ _ _ (by omega), List.getD_append_right _ _ _ _ (by omega), hlast, Nat.sub_self]
  rfl

/-- The cut of a record by a mark opens the next one. -/
theorem State.takeRecord_mark (r : RecordProgress) (k : RecordKind) (s : State) :
    s.takeRecord r k.mark = (s.cutRecord).openRecord k := by cases k <;> rfl

/-- A part that takes the same from an arrival is left the same by it. -/
theorem exec_eq_of_taken (hs : s.running = true) (ht : t.running = true)
    (h : (s.afterArrival x).takeSymbol x.taken = (t.afterArrival x).takeSymbol x.taken) :
    exec (.symbolArrival x) s = exec (.symbolArrival x) t :=
  congrArg Host.Outcome.next (by rw [State.arrive_running x hs, h, State.arrive_running x ht])

/-- The record in progress, cut before the line moves or after it. -/
theorem State.cutRecord_afterArrival {r : RecordProgress} (hp : s.framer.position = .record r) (x : LineSymbol) :
    (s.afterArrival x).cutRecord =
      State.afterArrival x { s.afterFault 1 with framer := { s.framer with trainFaulted := true, position := .body } } := by
  have h1 : (s.afterArrival x).reportInPath 1 = _ := State.afterFault_same (s := s) (t := s.afterArrival x) rfl rfl rfl rfl 1
  have h2 : s.afterFault 1 = _ := State.afterFault_same (s := s) rfl rfl rfl rfl 1
  rw [State.cutRecord, h1, h2]
  simp [State.markFaulted, State.setPosition, State.afterArrival, State.inPath, hp]
  exact ⟨rfl, rfl⟩

/-- Settles O40: damage byte by byte, and what a cut or the end of SKIP leaves for the symbol that brings it. -/
theorem aDamagedRecordIsReportedAndNotTaken : Obligations.ADamagedRecordIsReportedAndNotTaken := by
  unfold Obligations.ADamagedRecordIsReportedAndNotTaken
  refine ⟨fun x s r hl hr hp hc => ?_, fun x s r hr hp hx => ?_, fun x s hr hp => ⟨fun hx hc => ?_, fun hx => ?_⟩⟩
  · intro a u damaged len
    have hopen : s.framer.position ≠ .outside := by rw [hp]; nofun
    have damaged_of {p : ParsePosition} (ht : a.takeRecord r x.taken =
        { u.afterFault 1 with framer := { a.framer with trainFaulted := true, position := p } }) (ho : p ≠ .outside) : damaged p :=
      exec_inTrain hr hopen hc ((State.takeSymbol_at (s := a) hp x.taken).trans ht) ho rfl
    refine ⟨fun b hx hlast hbad => damaged_of ?_ nofun, fun hx _ hlast => damaged_of ?_ nofun, fun hempty hx => damaged_of ?_ nofun,
      fun k hx => damaged_of ?_ nofun⟩
    · rw [hx]
      refine State.takeRecordByte_damaged hlast ?_ a
      obtain ⟨hcheck, hreceived⟩ := RecordProgress.take_check hlast b
      rw [RecordProgress.valid, hcheck, hreceived]
      rcases hbad with herr | hne
      · rw [RecordProgress.take, herr]; rfl
      · have hno : (r.bytes.getD (r.length + 4) 0#8 ++ b == r.check) = false := beq_false_of_ne (Ne.symm hne)
        rw [hno, Bool.and_false]
    · rw [hx]
      exact State.takeRecordByte_damaged hlast (by simp [RecordProgress.valid, RecordProgress.take]) a
    · have hlength (b : Byte) (err : Bool) (hbad : err = true ∨ 48 < b.toNat) : a.takeRecordByte r b err =
          { u.afterFault 1 with framer := { a.framer with trainFaulted := true, position := .skip } } := by
        unfold State.takeRecordByte State.takeLength
        dsimp only
        have hlen : (err || decide (Config.maxPayload < b.toNat)) = true :=
          (Bool.or_eq_true_iff.2 (hbad.imp id fun h => decide_eq_true h))
        rw [if_pos (by rw [hempty]; rfl), if_pos hlen]
        exact State.damagedRecord_at .skip u.framer.position u
      rcases hx with hx | ⟨b, hx, hb⟩
      · rw [hx]; exact hlength 0#8 true (.inl rfl)
      · rw [hx]; exact hlength b false (.inr hb)
    · rw [hx, State.takeRecord_mark, State.openRecord]
      have hcut : a.cutRecord.breakRun = (u.setPosition .body).damagedRecord := by
        rw [State.damagedRecord_eq]
        show { (a.afterFault 1).breakRun with
          framer := { (a.afterFault 1).framer with trainFaulted := true, position := .body } } = _
        rw [State.afterFault_framer, State.afterFault_breakRun]
        rfl
      rw [hcut]
      exact State.damagedRecord_at _ _ u
  · intro cut
    have hrun : cut.running = true := by
      have h := State.afterFault_same (s := s) rfl rfl rfl rfl 1
      show State.running { s.afterFault 1 with framer := _ } = true
      rw [h]; exact hr
    refine exec_eq_of_taken hr hrun ?_
    have hcut : (s.afterArrival x).cutRecord = cut.afterArrival x := State.cutRecord_afterArrival hp x
    rw [State.takeSymbol_at (s := s.afterArrival x) hp, State.takeSymbol_at (s := cut.afterArrival x) (p := .body) rfl]
    show (s.afterArrival x).takeRecord r x.taken = (cut.afterArrival x).takeBody x.taken
    simp only [List.mem_cons, List.not_mem_nil, or_false] at hx
    rw [← hcut]
    rcases hx with hx | hx | hx | hx <;> rw [hx] <;> rfl
  · have hrun : (s.afterArrival x).takeSymbol x.taken = (s.afterArrival x).breakRun := by
      rw [State.takeSymbol_at (s := s.afterArrival x) hp]
      rcases hx with hx | ⟨b, hx⟩ <;> rw [hx] <;> rfl
    exact exec_inTrain hr (by rw [hp]; nofun) hc hrun (by show s.framer.position ≠ _; rw [hp]; nofun) rfl
  · refine exec_eq_of_taken hr hr ?_
    have hmove : State.afterArrival x { s with framer := { s.framer with position := .body } } = (s.afterArrival x).setPosition .body := by
      simp [State.afterArrival, State.setPosition, State.inPath, hp]
      exact ⟨rfl, rfl⟩
    rw [hmove, State.takeSymbol_at (s := s.afterArrival x) hp, State.takeSymbol_at (s := (s.afterArrival x).setPosition .body) (p := .body) rfl]
    show (s.afterArrival x).takeSkip x.taken = ((s.afterArrival x).setPosition .body).takeBody x.taken
    simp only [List.mem_cons, List.not_mem_nil, or_false] at hx
    rcases hx with hx | hx | hx | hx | hx | hx | hx | hx <;> rw [hx] <;> rfl

/-! ### Notices -/

theorem Factor.code_byte (f : Factor) :
    byteOf f.code =
      match f with
      | .trip => 0#8 | .stale => 1#8 | .link => 2#8 | .qfull => 3#8 | .slot => 4#8 | .isol => 5#8 | .opdone => 6#8 := by
  cases f <;> rfl

theorem IncidentQueue.newest_eq (q : IncidentQueue) : q.newest = (q.items.getLast?.map Incident.sequence).getD 0#8 := by
  unfold IncidentQueue.newest
  cases q.items.getLast? <;> rfl

/-- The bytes of a notice that its check covers (R188, R190). -/
theorem State.noticeRecord_covered (s : State) :
    s.noticeRecord.covered =
      [5#8, BitVec.ofNat 8 (s.position.getD 0), s.framer.sequence,
        (match s.alert.noticeCause with
          | .trip => 0#8 | .stale => 1#8 | .link => 2#8 | .qfull => 3#8 | .slot => 4#8 | .isol => 5#8 | .opdone => 6#8),
        factorByte s.alert.flags s.alert.alertn, BitVec.ofNat 8 s.queue.items.length,
        (s.queue.items.getLast?.map Incident.sequence).getD 0#8,
        (match s.op.slot with | .idle => 0#8 | .capture _ => 1#8 | .trial _ => 2#8), if s.reaction.isolated = true then 1#8 else 0#8] := by
  show [5#8, byteOf (s.position.getD 0), s.framer.sequence, byteOf s.alert.noticeCause.code, s.alert.factorSet,
    byteOf s.queue.items.length, s.queue.newest, byteOf s.op.slot.code, flagByte s.reaction.isolated] = _
  rw [Factor.code_byte, OperationSlot.code_byte, AlertUnit.factorSet_eq, IncidentQueue.newest_eq]
  rfl

/-- A notice is placed once the run stands at 12 (R143). -/
theorem State.placeNotice_waiting (h : s.inPath = true) :
    s.placeNotice.alert.noticeWaiting = (s.alert.noticeWaiting && !decide (s.alert.noticeRun = 12)) := by
  unfold State.placeNotice
  rw [h]
  cases hw : s.alert.noticeWaiting <;> by_cases hn : s.alert.noticeRun = 12 <;> simp [hw, hn, Config.noticeRunLength]

/-- A FILL in the body places a waiting notice exactly after a run of 11 (R142, R143). -/
theorem noticePlaced_iff (hr : s.running = true) (hi : s.inPath = true) (hp : s.framer.position = .body) :
    noticePlaced s = true ↔ s.alert.noticeWaiting = true ∧ 11 ≤ s.alert.noticeRun := by
  let w : State := { s.moveLine (.readable .fill) with framer := s.framer.hear }
  have hw : w.inPath = true := by simpa [State.inPath, w] using hi
  have ha : w.alert = s.alert := by simp [w]
  have htaken : s.takeArrival (.readable .fill) =
      State.placeNotice { w with alert := { w.alert with noticeRun := min 12 (w.alert.noticeRun + 1) } } := by
    show w.takeSymbol .fill = _
    rw [State.takeSymbol_at (s := w) hp]
    show (if w.inPath = true then _ else w).placeNotice = _
    rw [if_pos hw]
    rfl
  rw [noticePlaced, hr, htaken, State.placeNotice_waiting (by exact hw), ha]
  dsimp only
  have hrun : decide (min 12 (s.alert.noticeRun + 1) = 12) = decide (11 ≤ s.alert.noticeRun) := decide_eq_decide.2 (by omega)
  rw [hrun]
  cases s.alert.noticeWaiting <;> simp

/-- Settles O50: the run after this FILL, and the notice once it stands at 12. -/
theorem aWaitingNoticeIsPlacedInTwelveFill : Obligations.AWaitingNoticeIsPlacedInTwelveFill := by
  unfold Obligations.AWaitingNoticeIsPlacedInTwelveFill
  intro s hr hi hd hp hc a newest cause covered check notice
  let u : State := { a with alert := { s.alert with noticeRun := min 12 (s.alert.noticeRun + 1) } }
  have htaken : a.takeSymbol .fill = u.placeNotice := by
    rw [State.takeSymbol_at (s := a) hp]
    show (if s.inPath = true then u else a).placeNotice = _
    rw [if_pos hi]
  have arrives {t : State} (ht : u.placeNotice = t) (ho : t.framer = a.framer) : s.quiet.arrive (.readable .fill) = t := by
    refine State.arrive_inTrain hr (htaken.trans ht) (by rw [ho, show a.framer.position = _ from hp]; nofun) ?_
    have hcount : a.framer.symbolCount = s.framer.symbolCount + 1 := if_neg (by rw [hp]; nofun)
    rw [ho, hcount]
    omega
  have hpath : u.inPath = true := hi
  refine ⟨fun hw hn => ?_, fun hno => ?_⟩
  · have hput : u.placeNotice =
        { a with delay := notice.reverse ++ a.delay.drop 12, alert := { s.alert with noticeWaiting := false, noticeRun := 0 } } := by
      have hfull : u.alert.noticeRun = Config.noticeRunLength := Nat.min_eq_left (by omega)
      have hnotice : u.noticeRecord.symbols = notice := by
        rw [WireRecord.symbols, WireRecord.bytes, State.noticeRecord_covered]
        rfl
      unfold State.placeNotice
      rw [if_pos (by rw [hpath, show u.alert.noticeWaiting = true from hw, hfull]; rfl), State.rewriteRecord, hnotice]
      rfl
    have harr := arrives hput rfl
    have hnamed : exec .noticePlacement s = .next (s.quiet.arrive (.readable .fill)) := by
      simp only [exec, execNoticePlacement, State.comesAbout]
      exact if_pos ((noticePlaced_iff hr hi hp).2 ⟨hw, hn⟩)
    exact ⟨by rw [hnamed, harr], hnamed.symm⟩
  · have hput : u.placeNotice = u := by
      unfold State.placeNotice
      refine if_neg fun hact => ?_
      simp only [Bool.and_eq_true, decide_eq_true_eq] at hact
      obtain ⟨⟨-, hw⟩, hn⟩ := hact
      rcases hno with hno | hno
      · exact absurd (hno.symm.trans hw) Bool.false_ne_true
      · have h12 : min 12 (s.alert.noticeRun + 1) = 12 := hn
        omega
    refine ⟨congrArg Host.Outcome.next (arrives hput rfl), ?_⟩
    simp only [exec, execNoticePlacement, State.comesAbout]
    refine if_neg fun hact => ?_
    obtain ⟨hw, hn⟩ := (noticePlaced_iff hr hi hp).1 hact
    rcases hno with hno | hno
    · exact absurd (hno.symm.trans hw) Bool.false_ne_true
    · omega

end

end Sys2Proof.Machine
end

section
/-! PROOF. How an arrival comes to the end of a train: what the Framer reports on the way, and the end itself (R13, R16 to R22, R29 to R32, R35). -/

namespace Sys2Proof.Machine

/-! ### Reports and the factors -/

theorem PerFactor.set_self {α : Type} {p : PerFactor α} {f : Factor} {v : α} (h : p.get f = v) : p.set f v = p := by
  subst h
  cases p
  cases f <;> rfl

/-- A factor raised is pending, whether this is its rise or not (R125). -/
theorem AlertUnit.raise_flags (f : Factor) (a : AlertUnit) : (a.raise f).flags = a.flags.set f true := by
  unfold AlertUnit.raise
  split
  next h => exact (PerFactor.set_self h).symm
  · rfl

theorem State.raise_flags (f : Factor) (s : State) : (s.raise f).alert.flags = s.alert.flags.set f true := AlertUnit.raise_flags f s.alert

/-- An incident pushed joins the queue while it has room (R138, R139). -/
theorem State.pushIncident_room {s : State} (h : s.queue.items.length < 32) (k : IncidentKind) (e : Option Nat) (v : Option Word) :
    s.pushIncident k e v = { s with
      queue :=
        { items := s.queue.items ++ [{ sequence := s.queue.counter, kind := k, entry := e, train := s.framer.sequence, value := v }]
          counter := s.queue.counter + 1#8 } } := if_pos h

/-- A push at a full queue raises QFULL instead (R128). -/
theorem State.pushIncident_full {s : State} (h : ¬ s.queue.items.length < 32) (k : IncidentKind) (e : Option Nat) (v : Option Word) :
    s.pushIncident k e v = s.raise .qfull := if_neg h

/-! ### What the Framer's reports leave -/

/-- The part later in the same train, after at most k reports: its Framer's marks and its line may have moved, LINK and QFULL may have
risen, and LINK incidents may have joined the queue; nothing else has changed. -/
structure State.HeardIn (k : Nat) (s u : State) : Prop where
  link : u.link = s.link
  table : u.table = s.table
  streak : u.trialStreak = s.trialStreak
  reaction : u.reaction = s.reaction
  op : u.op = s.op
  levels : u.alert.levels = s.alert.levels
  sequence : u.framer.sequence = s.framer.sequence
  flags : u.framer.flags = s.framer.flags
  readable : u.framer.readable = s.framer.readable
  count : u.framer.symbolCount = s.framer.symbolCount
  opened : u.framer.position ≠ .outside
  factors : u.alert.flags = { s.alert.flags with link := u.alert.flags.link, qfull := u.alert.flags.qfull }
  qfullStays : s.alert.flags.qfull = true → u.alert.flags.qfull = true
  queue : ∃ ys, u.queue.items = s.queue.items ++ ys ∧ ys.length ≤ k ∧ ∀ y ∈ ys, y.kind = .link

section

variable {s t u : State} {x : LineSymbol} {k m : Nat}

/-- A part later in the train whose blocks are the same. -/
theorem State.HeardIn.of_same (hopen : u.framer.position ≠ .outside) (hread : u.framer.readable = s.framer.readable)
    (h : u.link = s.link ∧ u.table = s.table ∧ u.trialStreak = s.trialStreak ∧ u.reaction = s.reaction ∧ u.op = s.op ∧
      u.alert.levels = s.alert.levels ∧ u.framer.sequence = s.framer.sequence ∧ u.framer.flags = s.framer.flags ∧
      u.framer.symbolCount = s.framer.symbolCount ∧ u.alert.flags = s.alert.flags ∧ u.queue = s.queue) : s.HeardIn 0 u := by
  obtain ⟨hl, htab, hstr, hr, hop, hlev, hseq, hfl, hc, haf, hq⟩ := h
  exact
    { link := hl, table := htab, streak := hstr, reaction := hr, op := hop, levels := hlev, sequence := hseq, flags := hfl
      readable := hread, count := hc, opened := hopen, factors := by rw [haf]
      qfullStays := fun h => haf ▸ h, queue := ⟨[], by rw [hq, List.append_nil], Nat.le_refl _, nofun⟩ }

theorem State.HeardIn.trans (h : s.HeardIn k t) (h' : t.HeardIn m u) : s.HeardIn (k + m) u where
  link := h'.link.trans h.link
  table := h'.table.trans h.table
  streak := h'.streak.trans h.streak
  reaction := h'.reaction.trans h.reaction
  op := h'.op.trans h.op
  levels := h'.levels.trans h.levels
  sequence := h'.sequence.trans h.sequence
  flags := h'.flags.trans h.flags
  readable := h'.readable.trans h.readable
  count := h'.count.trans h.count
  opened := h'.opened
  factors := by rw [h'.factors, h.factors]
  qfullStays := fun hs => h'.qfullStays (h.qfullStays hs)
  queue := by
    obtain ⟨ys, hy, hlen, hkind⟩ := h.queue
    obtain ⟨zs, hz, hlen', hkind'⟩ := h'.queue
    refine ⟨ys ++ zs, by rw [hz, hy, List.append_assoc], by rw [List.length_append]; omega, fun y hmem => ?_⟩
    exact (List.mem_append.1 hmem).elim (hkind y) (hkind' y)

theorem State.HeardIn.le (h : s.HeardIn k u) (hk : k ≤ m) : s.HeardIn m u :=
  { h with
    queue := by
      obtain ⟨ys, hy, hlen, hkind⟩ := h.queue
      exact ⟨ys, hy, Nat.le_trans hlen hk, hkind⟩ }

theorem State.HeardIn.refl (h : s.framer.position ≠ .outside) : s.HeardIn 0 s := .of_same h rfl (by simp)

/-- One report (R22). -/
theorem State.HeardIn.report (h : s.framer.position ≠ .outside) (c : Nat) : s.HeardIn 1 (s.report c) where
  link := by simp
  table := by simp
  streak := by simp
  reaction := by simp
  op := by simp
  levels := by simp
  sequence := by simp
  flags := by simp
  readable := by simp
  count := by simp
  opened := by simpa using h
  factors := by
    unfold State.report State.pushIncident
    split
    · rw [State.raise_flags]; rfl
    · rw [State.raise_flags, State.raise_flags]; rfl
  qfullStays := fun hq => by
    unfold State.report State.pushIncident
    split
    · rw [State.raise_flags]; exact hq
    · rw [State.raise_flags]; rfl
  queue := by
    unfold State.report State.pushIncident
    split
    · exact ⟨[_], rfl, Nat.le_refl _, fun y hy => by rw [List.mem_singleton.1 hy]⟩
    · exact ⟨[], by simp, by simp, nofun⟩

theorem State.HeardIn.reportInPath (h : s.framer.position ≠ .outside) (c : Nat) : s.HeardIn 1 (s.reportInPath c) := by
  unfold State.reportInPath
  split
  · exact .report h c
  · exact (State.HeardIn.refl h).le (by omega)

theorem State.HeardIn.breakRun (h : s.framer.position ≠ .outside) : s.HeardIn 0 s.breakRun := .of_same h rfl (by simp [State.breakRun])

/-- The parse position moves inside the body of a readable train. -/
theorem State.HeardIn.setPosition {p : ParsePosition} (hs : s.framer.readable = true)
    (hp : ∀ f : Framer, f.position = p → f.readable = true ∧ f.position ≠ .outside) : s.HeardIn 0 (s.setPosition p) :=
  .of_same (hp _ rfl).2 ((hp _ rfl).1.trans hs.symm) (by simp [State.setPosition])

theorem State.HeardIn.toBody (hs : s.framer.readable = true) : s.HeardIn 0 (s.setPosition .body) :=
  .setPosition hs fun f hf => by rw [Framer.readable, hf]; exact ⟨rfl, nofun⟩

theorem State.HeardIn.toSkip (hs : s.framer.readable = true) : s.HeardIn 0 (s.setPosition .skip) :=
  .setPosition hs fun f hf => by rw [Framer.readable, hf]; exact ⟨rfl, nofun⟩

theorem State.HeardIn.toRecord (hs : s.framer.readable = true) (r : RecordProgress) : s.HeardIn 0 (s.setPosition (.record r)) :=
  .setPosition hs fun f hf => by rw [Framer.readable, hf]; exact ⟨rfl, nofun⟩

theorem Framer.open_of_readable {f : Framer} (h : f.readable = true) : f.position ≠ .outside := fun hp => by
  rw [Framer.readable, hp] at h
  cases h

theorem State.HeardIn.damagedRecord (hs : s.framer.readable = true) : s.HeardIn 1 s.damagedRecord := by
  have hr := State.HeardIn.reportInPath (Framer.open_of_readable hs) 1
  exact hr.trans (m := 0) (.of_same hr.opened rfl ⟨rfl, rfl, rfl, rfl, rfl, rfl, rfl, rfl, rfl, rfl, rfl⟩)

theorem State.HeardIn.cutRecord (hs : s.framer.readable = true) : s.HeardIn 1 s.cutRecord := by
  have hd := State.HeardIn.damagedRecord hs
  exact hd.trans (m := 0) (.toBody (hd.readable.trans hs))

/-! ### A symbol that ends no train and completes no record -/

/-- FILL and marks in the body report nothing. -/
theorem State.HeardIn.takeBody_quiet (hs : s.framer.readable = true) {y : Symbol} (hy : y ∈ [Symbol.fill, .md, .mq, .ma, .mn]) :
    s.HeardIn 0 (s.takeBody y) := by
  have ho := Framer.open_of_readable hs
  have opens (k : RecordKind) : s.HeardIn 0 (s.openRecord k) :=
    (State.HeardIn.breakRun ho).trans (m := 0) (State.HeardIn.toRecord (s := s.breakRun) hs _)
  simp only [List.mem_cons, List.not_mem_nil, or_false] at hy
  rcases hy with rfl | rfl | rfl | rfl | rfl
  · exact .of_same (by simpa [State.takeBody] using ho) (by simp [State.takeBody]) (by simp [State.takeBody])
  · exact opens .data
  · exact opens .request
  · exact opens .reply
  · exact opens .notice

theorem State.HeardIn.strayInBody (hs : s.framer.readable = true) : s.HeardIn 1 s.strayInBody := by
  have ho := Framer.open_of_readable hs
  have hb := State.HeardIn.breakRun ho
  have hr : s.HeardIn 1 (if s.breakRun.framer.strayReported then s.breakRun else s.breakRun.reportInPath 2) := by
    split
    · exact hb.le (by omega)
    · exact hb.trans (State.HeardIn.reportInPath (s := s.breakRun) ho 2)
  exact hr.trans (m := 0) (.of_same hr.opened rfl ⟨rfl, rfl, rfl, rfl, rfl, rfl, rfl, rfl, rfl, rfl, rfl⟩)

/-- No block takes a record that completes outside the path (R28). -/
theorem State.deliver_outOfPath (h : s.inPath = false) (r : RecordProgress) : s.deliver r = s := by
  unfold State.deliver
  cases r.kind <;> simp [State.completeData, State.completeRequest, h]

/-- The last byte of a record is taken, in the path, and the record is whole (R17). -/
def State.completesWith (s : State) (y : Symbol) : Prop :=
  s.inPath = true ∧ ∃ r b, s.framer.position = .record r ∧ y = .data b ∧ r.bytes.length = r.length + 5

theorem State.HeardIn.takeRecordByte {r : RecordProgress} (hs : s.framer.readable = true) (b : Byte) (err : Bool)
    (hno : err = false → s.inPath = true → r.bytes.length ≠ r.length + 5) : s.HeardIn 1 (s.takeRecordByte r b err) := by
  have hb := State.HeardIn.breakRun (Framer.open_of_readable hs)
  unfold State.takeRecordByte State.takeLength
  dsimp only
  split
  · split
    · have hd := hb.trans (State.HeardIn.damagedRecord (s := s.breakRun) hs)
      exact hd.trans (m := 0) (.toSkip (hd.readable.trans hs))
    · exact (hb.trans (State.HeardIn.toRecord (s := s.breakRun) hs _)).le (by omega)
  next hne =>
    split
    next hfull =>
      have hlast : r.bytes.length = r.length + 5 := by
        rw [RecordProgress.take_length (by simpa using hne)] at hfull
        simpa [RecordProgress.take] using hfull
      have hbody := hb.trans (State.HeardIn.toBody (s := s.breakRun) hs)
      unfold State.finishRecord
      dsimp only
      split
      next hvalid =>
        have hout : s.inPath = false := by
          cases err
          · exact Bool.eq_false_iff.2 fun hi => hno rfl hi hlast
          · simp [RecordProgress.valid, RecordProgress.take] at hvalid
        rw [State.deliver_outOfPath (by exact hout)]
        exact hbody.le (by omega)
      · exact hbody.trans (.damagedRecord (hbody.readable.trans hs))
    · exact (hb.trans (State.HeardIn.toRecord (s := s.breakRun) hs _)).le (by omega)

/-- A symbol taken past the header that ends no train and completes no record: at most one report. -/
theorem State.HeardIn.takeSymbol {y : Symbol} (hp : s.framer.readable = true ∨ s.framer.position = .unread)
    (hc : s.framer.symbolCount ≠ 4) (hy : y ∉ [Symbol.te, .ta, .ts]) (hno : ¬ s.completesWith y) : s.HeardIn 1 (s.takeSymbol y) := by
  have hquiet {u : State} (hu : u.framer.readable = true) (hd : ∀ b, y ≠ .data b) (he : y ≠ .err) : u.HeardIn 0 (u.takeBody y) := by
    refine .takeBody_quiet hu ?_
    cases y
    case data b => exact absurd rfl (hd b)
    case err => exact absurd rfl he
    all_goals simp at hy ⊢
  unfold State.takeSymbol
  cases hpos : s.framer.position <;> simp only [Framer.readable, hpos, reduceCtorEq, or_self, or_false, Bool.false_eq_true] at hp
  case body =>
    have hs : s.framer.readable = true := by rw [Framer.readable, hpos]
    cases y
    case data | err => exact .strayInBody hs
    all_goals exact (hquiet hs nofun nofun).le (by omega)
  case record r =>
    have hs : s.framer.readable = true := by rw [Framer.readable, hpos]
    show s.HeardIn 1 (s.takeRecord r y)
    unfold State.takeRecord
    split
    next b => exact .takeRecordByte hs b false fun _ hi hl => hno ⟨hi, r, b, hpos, rfl, hl⟩
    · exact .takeRecordByte hs 0#8 true nofun
    next hd he =>
      have hcut := State.HeardIn.cutRecord hs
      exact hcut.trans (m := 0) (hquiet (hcut.readable.trans hs) hd he)
  case skip =>
    have hs : s.framer.readable = true := by rw [Framer.readable, hpos]
    show s.HeardIn 1 (s.takeSkip y)
    unfold State.takeSkip
    split
    · exact (State.HeardIn.breakRun (Framer.open_of_readable hs)).le (by omega)
    · exact (State.HeardIn.breakRun (Framer.open_of_readable hs)).le (by omega)
    next hd he =>
      have hbody := State.HeardIn.toBody hs
      exact (hbody.trans (m := 0) (hquiet (hbody.readable.trans hs) hd he)).le (by omega)
  case unread =>
    have hopen : s.framer.position ≠ .outside := by rw [hpos]; nofun
    show s.HeardIn 1 (s.takeUnread y)
    unfold State.takeUnread
    split
    · rw [if_neg hc]
      exact (State.HeardIn.refl hopen).le (by omega)
    next hd =>
      have hset : s.HeardIn 0 (s.setPosition .unread) :=
        .of_same nofun (by rw [Framer.readable, Framer.readable, hpos]; rfl) (by simp [State.setPosition])
      have hun : s.takeUnexpected y = s.setPosition .unread := by
        refine (State.takeUnexpected_unread ?_ s).1
        cases y
        case data b => exact absurd rfl (hd b)
        all_goals simp at hy ⊢
      rw [hun]
      exact hset.le (by omega)

/-! ### The end of a train -/

/-- The part as the end of a train takes it, after the end's own report (R21, R22). -/
def State.endReported (byTe : Bool) (s : State) : State :=
  if s.framer.readable then (if byTe then s else s.reportInPath 4) else s.reportInPath 3

theorem State.endTrain_eq (byTe : Bool) (s : State) : s.endTrain byTe = (s.endReported byTe).trainEnd byTe := rfl

theorem State.HeardIn.endReported (h : s.framer.position ≠ .outside) (byTe : Bool) : s.HeardIn 1 (s.endReported byTe) := by
  unfold State.endReported
  repeat' split
  · exact (State.HeardIn.refl h).le (by omega)
  · exact .reportInPath h 4
  · exact .reportInPath h 3

theorem State.cutShort_delay (s : State) : s.cutShort.delay = s.delay := by
  unfold State.cutShort
  split <;> simp

theorem State.endReported_delay (byTe : Bool) (s : State) : (s.endReported byTe).delay = s.delay := by
  unfold State.endReported
  repeat' split
  all_goals simp

/-- A symbol that ends the train: the cut of what it finds open and the end's report are the causes that the statements list. -/
theorem State.HeardIn.ended (h : s.framer.position ≠ .outside) (y : Symbol) :
    s.HeardIn (s.endCauses y).length (s.cutShort.endReported (y == .te)) := by
  have hlen : (if y = .te then ([] : List Nat) else [4]).length = if y = .te then 0 else 1 := by split <;> rfl
  have readableEnd {u : State} (hu : u.framer.readable = true) : u.HeardIn (if y = .te then 0 else 1) (u.endReported (y == .te)) := by
    have ho := Framer.open_of_readable hu
    unfold State.endReported
    rw [if_pos hu]
    by_cases hte : y = .te
    · rw [if_pos hte, if_pos (by simpa using hte)]
      exact .refl ho
    · rw [if_neg hte, if_neg (by simpa using hte)]
      exact .reportInPath ho 4
  have unreadEnd (hs : s.framer.readable = false) (hcut : s.cutShort = s) (hcauses : s.endCauses y = [3]) :
      s.HeardIn (s.endCauses y).length (s.cutShort.endReported (y == .te)) := by
    rw [hcut, hcauses, State.endReported, if_neg (by rw [hs]; nofun)]
    exact .reportInPath h 3
  cases hpos : s.framer.position
  case outside => exact absurd hpos h
  case body =>
    have hcut : s.cutShort = s := by rw [State.cutShort, hpos]
    rw [State.endCauses, hpos, hcut, hlen]
    exact readableEnd (by rw [Framer.readable, hpos])
  case skip =>
    have hs : s.framer.readable = true := by rw [Framer.readable, hpos]
    have hcut : s.cutShort = s.setPosition .body := by rw [State.cutShort, hpos]
    have hbody := State.HeardIn.toBody hs
    rw [State.endCauses, hpos, hcut, hlen]
    exact (hbody.trans (readableEnd (hbody.readable.trans hs))).le (by omega)
  case record r =>
    have hs : s.framer.readable = true := by rw [Framer.readable, hpos]
    have hcut : s.cutShort = s.cutRecord := by rw [State.cutShort, hpos]
    have hrec := State.HeardIn.cutRecord hs
    rw [State.endCauses, hpos, hcut, List.length_cons, hlen]
    exact (hrec.trans (readableEnd (hrec.readable.trans hs))).le (by omega)
  all_goals
    refine unreadEnd (by rw [Framer.readable, hpos]) (by rw [State.cutShort, hpos]) (by rw [State.endCauses, hpos])

/-- The arrival of a symbol that ends the open train (R13, R21). -/
theorem State.arrive_end (hr : s.running = true) (hp : s.framer.position ≠ .outside) (hx : x.taken ∈ [Symbol.te, .ta, .ts]) :
    s.quiet.arrive x =
      if x.taken = .ts then (((s.afterArrival x).cutShort.endReported false).trainEnd false).openTrain
      else (((s.afterArrival x).cutShort.endReported (x.taken == .te)).trainEnd (x.taken == .te)).leaveIfDue := by
  have hp' : (s.afterArrival x).framer.position ≠ .outside := hp
  simp only [List.mem_cons, List.not_mem_nil, or_false] at hx
  rcases hx with hx | hx | hx
  · have hte : (s.afterArrival x).takeSymbol x.taken = (s.afterArrival x).cutShort.endTrain true := by
      rw [hx]
      exact (State.takeSymbol_te _).2 hp'
    rw [if_neg (by rw [hx]; nofun), State.arrive_betweenTrains hr hte rfl, hx]
    rfl
  · have hta : (s.afterArrival x).takeSymbol x.taken = (s.afterArrival x).cutShort.endTrain false := by
      rw [hx]
      exact State.takeSymbol_ta hp'
    rw [if_neg (by rw [hx]; nofun), State.arrive_betweenTrains hr hta rfl, hx]
    rfl
  · have hts : (s.afterArrival x).takeSymbol x.taken = (((s.afterArrival x).cutShort.endReported false).trainEnd false).openTrain := by
      rw [hx, State.takeSymbol_ts, if_neg hp']
      rfl
    have hopened := (State.openTrain_opened (((s.afterArrival x).cutShort.endReported false).trainEnd false)).1
    rw [if_pos hx]
    exact State.arrive_inTrain hr hts (by rw [hopened]; nofun) (by rw [hopened]; nofun)

/-- Past the 34th symbol no header is read. -/
theorem Framer.counts_late {f : Framer} (h : f.counts 0 2048) (ho : f.position ≠ .outside) (hc : f.symbolCount = 2047) :
    f.readable = true ∨ f.position = .unread := by
  unfold Framer.counts at h
  unfold Framer.readable
  cases hp : f.position <;> simp only [hp] at h ho ⊢
  case outside => exact absurd rfl ho
  case header | status => omega
  all_goals simp

/-- The limit cuts a record that is still open (R19). -/
def State.limitCut (s : State) : State :=
  match s.framer.position with
  | .record _ => s.cutRecord
  | _ => s

theorem State.HeardIn.limitCut (h : s.framer.position ≠ .outside) : s.HeardIn 1 s.limitCut := by
  unfold State.limitCut
  split
  next r hp => exact .cutRecord (s := s) (by rw [Framer.readable, hp])
  · exact (State.HeardIn.refl h).le (by omega)

/-- The break at the limit, as a report on a cut train and its end. -/
theorem State.limitBreak_eq (s : State) : s.limitBreak = (s.limitCut.endReported false).trainEnd false := by
  unfold State.limitBreak State.limitCut
  cases s.framer.position <;> rfl

theorem State.HeardIn.limitBreak (h : s.framer.position ≠ .outside) :
    ∃ u, s.HeardIn 2 u ∧ s.limitBreak = u.trainEnd false ∧ u.delay = s.delay := by
  rw [State.limitBreak_eq]
  have hcut := State.HeardIn.limitCut h
  refine ⟨_, hcut.trans (.endReported hcut.opened false), rfl, ?_⟩
  rw [State.endReported_delay, State.limitCut]
  split <;> simp

/-- The 2048th symbol of a train that does not itself end it (R21). -/
theorem State.arrive_limit (hr : s.running = true) (hp : s.framer.position ≠ .outside) (hc : s.framer.symbolCount = 2047)
    {v : State} (hv : (s.afterArrival x).takeSymbol x.taken = v) (ho : v.framer.position ≠ .outside)
    (hn : v.framer.symbolCount = (s.afterArrival x).framer.symbolCount) : s.quiet.arrive x = v.limitBreak.leaveIfDue := by
  have hcount : (s.afterArrival x).framer.symbolCount = 2048 := (if_neg hp).trans (by rw [hc])
  rw [State.arrive_running x hr, hv, State.limitIfDue, if_pos]
  rw [Bool.and_eq_true, Framer.trainOpen_iff, decide_eq_true_eq]
  exact ⟨ho, hn.trans hcount⟩

/-- Such a symbol that completes no record in the path: at most three reports, then the end. -/
theorem State.arrive_limit_quiet (hr : s.running = true) (hcounts : s.framer.counts 0 2048) (hp : s.framer.position ≠ .outside)
    (hc : s.framer.symbolCount = 2047) (hx : x.taken ∉ [Symbol.te, .ta, .ts]) (hno : ¬ (s.afterArrival x).completesWith x.taken) :
    ∃ u, (s.afterArrival x).HeardIn 3 u ∧ s.quiet.arrive x = (u.trainEnd false).leaveIfDue ∧
      u.delay = ((s.afterArrival x).takeSymbol x.taken).delay := by
  have hlate := Framer.counts_late hcounts hp hc
  have hcount : (s.afterArrival x).framer.symbolCount = 2048 := (if_neg hp).trans (by rw [hc])
  have hv := State.HeardIn.takeSymbol (s := s.afterArrival x) hlate (by rw [hcount]; nofun) hx hno
  obtain ⟨u, hu, hbreak, hdelay⟩ := State.HeardIn.limitBreak hv.opened
  exact ⟨u, hv.trans hu, by rw [State.arrive_limit hr hp hc rfl hv.opened hv.count, hbreak], hdelay⟩

end

end Sys2Proof.Machine
end

section
/-! PROOF. The ends of trains as a bypassed part's Link Controller takes them, and a part that leaves the path (R29 to R32, R35). -/

namespace Sys2Proof.Machine

/-! ### The Link Controller at a train end outside the path -/

/-- The Link Controller outside the path after a train end, by its state before (R29, R30, R31, R35). -/
def Link.afterEnd (byTe clean : Bool) (l : Link) : Link :=
  match l.state with
  | .acquire => l.countClean clean
  | .joinWait =>
    if byTe then (if l.draining then l else { l with state := .inline, bypassClosed := false }) else l.toAcquire
  | .held => l.countHeld
  | _ => l

/-- The count of R35. -/
theorem Link.countHeld_eq (l : Link) :
    l.countHeld = if l.heldCount = 1 then { l.toAcquire with heldCount := 0 } else { l with heldCount := l.heldCount - 1 } := by
  unfold Link.countHeld
  by_cases h0 : l.heldCount = 0
  · rw [if_pos h0, if_neg (by omega)]
    cases l
    dsimp only at h0
    rw [h0]
    rfl
  · rw [if_neg h0]

section

variable {s u : State} {x : LineSymbol}

theorem Link.afterEnd_notLeaving {l : Link} (h : l.state.inPath = false) (byTe clean : Bool) :
    (l.afterEnd byTe clean).state ≠ .leaveWait := by
  intro hl
  unfold Link.afterEnd at hl
  cases hs : l.state <;> simp only [hs] at hl h
  case acquire => rcases Link.countClean_state hs clean with hc | hc <;> cases hc.symm.trans hl
  case joinWait =>
    split at hl
    · split at hl
      · cases hs.symm.trans hl
      · cases hl
    · cases hl
  case held => rcases Link.countHeld_state hs with hc | hc <;> cases hc.symm.trans hl
  all_goals cases h

theorem State.linkTrainEnd_link (h : s.inPath = false) (byTe clean : Bool) :
    (s.linkTrainEnd s.link.state byTe clean).link = s.link.afterEnd byTe clean := by
  unfold State.linkTrainEnd Link.afterEnd State.joinWaitEnd State.join
  cases hs : s.link.state <;> rw [State.inPath, hs] at h
  case joinWait =>
    dsimp only
    split
    · split <;> rfl
    · rfl
  all_goals cases h

theorem State.trainEnd_link (h : s.inPath = false) (byTe : Bool) :
    (s.trainEnd byTe).link = s.link.afterEnd byTe (byTe && s.framer.readable && !s.framer.trainFaulted) := by
  rw [State.trainEnd_outOfPath h, ← State.linkTrainEnd_link h]
  simp [State.clearTrainMarks]

/-- A train that ends by the arrival at a bypassed part: by TE, TA or TS, or by its 2048th symbol. -/
theorem State.arrive_end_outside (hr : s.running = true) (hi : s.inPath = false) (hp : s.framer.position ≠ .outside)
    (hx : x.taken ∈ [Symbol.te, .ta, .ts] ∨ (s.framer.counts 0 2048 ∧ s.framer.symbolCount = 2047)) :
    ∃ clean, (clean = true → x.taken = .te) ∧ (s.quiet.arrive x).link = s.link.afterEnd (x.taken == .te) clean := by
  have stays {b c : Bool} {v : State} (hv : v.link = s.link.afterEnd b c) : v.leaveIfDue = v :=
    State.leaveIfDue_none (.inl (hv ▸ Link.afterEnd_notLeaving hi b c))
  have hp' : (s.afterArrival x).framer.position ≠ .outside := hp
  by_cases hends : x.taken ∈ [Symbol.te, .ta, .ts]
  · have hu := State.HeardIn.ended hp' x.taken
    have hlink : ((s.afterArrival x).cutShort.endReported (x.taken == .te)).link = s.link := hu.link
    have hended := State.trainEnd_link (by rw [State.inPath, hlink]; exact hi) (x.taken == .te)
    rw [hlink] at hended
    have hclean (b c : Bool) : (x.taken == .te && b && c) = true → x.taken = .te := by
      simp only [Bool.and_eq_true, beq_iff_eq]
      exact fun h => h.1.1
    refine ⟨_, hclean _ _, Eq.trans ?_ hended⟩
    rw [State.arrive_end hr hp hends]
    by_cases hts : x.taken = .ts
    · rw [if_pos hts, (State.openTrain_frame _).2.2.2.2.1, hts]
      rfl
    · rw [if_neg hts, stays hended]
  · obtain ⟨hcounts, hc⟩ := hx.resolve_left hends
    have hno : ¬ (s.afterArrival x).completesWith x.taken := fun h => Bool.false_ne_true (hi.symm.trans h.1)
    obtain ⟨u, hu, harr, -⟩ := State.arrive_limit_quiet hr hcounts hp hc hends hno
    have hlink : u.link = s.link := hu.link
    have hended := State.trainEnd_link (by rw [State.inPath, hlink]; exact hi) false
    rw [hlink] at hended
    have hne : x.taken ≠ .te := fun h => hends (by rw [h]; simp)
    refine ⟨false, nofun, ?_⟩
    rw [harr, stays hended, hended, beq_false_of_ne hne]
    rfl

/-! ### HELD (R35) -/

theorem State.held_outOfPath (h : s.link.state = .held) : s.inPath = false := by rw [State.inPath, h]; rfl

/-- With a train open the signal has not been lost. -/
theorem State.PlacedParts.present {late limit : Nat} (h : s.PlacedParts late limit) (hp : s.framer.position ≠ .outside) :
    s.framer.signal = .present := by
  cases hs : s.framer.signal
  · rfl
  · exact absurd (h.gone hs) hp

/-- Silence at a HELD part in an open train: a drain is over, the loss is reported and the train's end counted (R23, R34, R35). -/
theorem State.fallSilent_held (hr : s.running = true) (hs : s.link.state = .held) (hsig : s.framer.signal = .present)
    (hp : s.framer.position ≠ .outside) :
    ∃ l : Link, l.state = .held ∧ l.heldCount = s.link.heldCount ∧ l.mode = s.link.mode ∧
      s.quiet.fallSilent.link = (l.countHeld).loseSignal true ∧ s.quiet.fallSilent.table = s.table ∧
      s.quiet.fallSilent.op = s.op ∧ s.quiet.fallSilent.reaction = s.reaction := by
  let v : State := if s.link.draining = true then s.quiet.finishDrain else s.quiet
  have hv : v.link.state = .held ∧ v.link.heldCount = s.link.heldCount ∧ v.link.mode = s.link.mode ∧ v.framer = s.framer ∧
      v.table = s.table ∧ v.op = s.op ∧ v.reaction = s.reaction := by
    by_cases hd : s.link.draining = true
    · have heq : v = s.quiet.finishDrain := if_pos hd
      rw [heq, State.finishDrain_eq]
      exact ⟨hs, rfl, rfl, rfl, rfl, rfl, rfl⟩
    · have heq : v = s.quiet := if_neg hd
      rw [heq]
      exact ⟨hs, rfl, rfl, rfl, rfl, rfl, rfl⟩
  obtain ⟨hstate, hcount, hmode, hframer, htable, hop, hreact⟩ := hv
  have hloss : s.quiet.fallSilent = v.declareLoss := by
    have hr' : s.quiet.running = true := hr
    have hpresent : (v.framer.signal == .present) = true := by rw [hframer, hsig]; rfl
    rw [State.fallSilent, if_pos hr']
    exact if_pos hpresent
  have hopen : v.framer.position ≠ .outside := hframer ▸ hp
  rw [hloss, State.declareLoss_eq, (Framer.trainOpen_iff _).2 hopen, State.lossEnded, if_neg hopen]
  have hout : (State.report 5 { v with framer := { v.framer with signal := .lost, silence := 128 } }).inPath = false := by
    simp [State.inPath, hstate, LinkState.inPath]
  refine ⟨v.link, hstate, hcount, hmode, ?_, ?_, ?_, ?_⟩
  · have hl := State.trainEnd_link hout false
    simp only [State.report_frame] at hl
    rw [Link.afterEnd, hstate] at hl
    exact congrArg (Link.loseSignal true) hl
  · rw [State.trainEnd_outOfPath hout]
    simpa [State.clearTrainMarks] using htable
  · rw [State.trainEnd_outOfPath hout]
    simpa [State.clearTrainMarks] using hop
  · rw [State.trainEnd_outOfPath hout]
    simpa [State.clearTrainMarks] using hreact

theorem Link.countHeld_loseSignal {l : Link} (h : l.state = .held) :
    (l.heldCount = 1 → ((l.countHeld).loseSignal true).state = .acquire ∧ ((l.countHeld).loseSignal true).heldCount = 0 ∧
      ((l.countHeld).loseSignal true).cleanCount = 0 ∧ ((l.countHeld).loseSignal true).mode = l.mode) ∧
    (l.heldCount ≠ 1 → ((l.countHeld).loseSignal true).state = .held ∧
      ((l.countHeld).loseSignal true).heldCount = l.heldCount - 1) := by
  rw [Link.countHeld_eq]
  refine ⟨fun h1 => ?_, fun h1 => ?_⟩
  · rw [if_pos h1]
    exact ⟨rfl, rfl, rfl, rfl⟩
  · rw [if_neg h1]
    simp [Link.loseSignal, h]

/-- What a train end leaves of a HELD part, whatever brings it. -/
theorem State.held_end {o : Occasion} (hr : s.running = true) (hplaced : s.PlacedParts 0 2048) (hs : s.link.state = .held)
    (he : s.endsTrainAt o) :
    ∃ t, exec (commandOf o) s = .next t ∧ t = s.quiet.occur o ∧ t.table = s.table ∧ t.op = s.op ∧ t.reaction = s.reaction ∧
      (s.link.heldCount = 1 → t.link.state = .acquire ∧ t.link.heldCount = 0 ∧ t.link.cleanCount = 0 ∧ t.link.mode = s.link.mode) ∧
      (s.link.heldCount ≠ 1 → t.link.state = .held ∧ t.link.heldCount = s.link.heldCount - 1) := by
  obtain ⟨hp, hby⟩ := he
  have hi := State.held_outOfPath hs
  cases o
  case arrival x =>
    have hends : x.taken ∈ [Symbol.te, .ta, .ts] ∨ (s.framer.counts 0 2048 ∧ s.framer.symbolCount = 2047) :=
      hby.imp id fun h => ⟨hplaced.counts, h.1⟩
    obtain ⟨clean, -, hlink⟩ := State.arrive_end_outside hr hi hp hends
    have hw := State.watched_arrival hi hr x
    rw [Link.afterEnd, hs] at hlink
    refine ⟨s.quiet.arrive x, rfl, rfl, hw.table, hw.op, hw.reaction, fun h1 => ?_, fun h1 => ?_⟩
    · rw [hlink]
      dsimp only
      rw [Link.countHeld_eq, if_pos h1]
      exact ⟨rfl, rfl, rfl, rfl⟩
    · rw [hlink]
      dsimp only
      rw [Link.countHeld_eq, if_neg h1]
      exact ⟨hs, rfl⟩
  case silence =>
    obtain ⟨l, hstate, hcount, hmode, hlink, htable, hop, hreact⟩ := State.fallSilent_held hr hs (hplaced.present hp) hp
    obtain ⟨hone, hmore⟩ := Link.countHeld_loseSignal hstate
    refine ⟨s.quiet.fallSilent, rfl, rfl, htable, hop, hreact, fun h1 => ?_, fun h1 => ?_⟩
    · rw [hlink, ← hmode]
      exact hone (hcount.trans h1)
    · rw [hlink, ← hcount]
      exact hmore (hcount ▸ h1)

theorem State.endsBy_iff {o : Occasion} : s.endsBy o = true ↔ s.framer.position ≠ .outside ∧
    match o with
    | .arrival x => x.taken ∈ [Symbol.te, .ta, .ts] ∨ s.framer.symbolCount = 2047
    | .silence => True := by
  have hsym (y : Symbol) : y.endsTrain = true ↔ y ∈ [Symbol.te, .ta, .ts] := by cases y <;> simp [Symbol.endsTrain]
  unfold State.endsBy
  rw [Bool.and_eq_true, Framer.trainOpen_iff]
  refine and_congr_right fun _ => ?_
  cases o
  case arrival x =>
    rw [Bool.or_eq_true, decide_eq_true_eq, hsym]
    exact or_congr_right ⟨fun h => Nat.succ.inj h, fun h => congrArg (· + 1) h⟩
  case silence => simp

/-- Settles O45: the count at any train end, and what HELD_COUNT_EXPIRY makes of it. -/
theorem theHeldCountRunsOut : Obligations.TheHeldCountRunsOut := by
  unfold Obligations.TheHeldCountRunsOut
  intro o s hl hr hs he
  have hplaced := (State.placed_iff s).1 hl.2.2.1
  obtain ⟨t, hexec, ht, htable, hop, hreact, hone, hmore⟩ := State.held_end hr hplaced hs he
  have hends : s.endsBy o = true := State.endsBy_iff.2 ⟨he.1, by cases o; exacts [he.2.imp id And.left, trivial]⟩
  have hnamed : exec (.heldCountExpiry o) s = if t.link.state = .acquire then .next t else .next s.quiet := by
    simp only [exec, execHeldCountExpiry, State.comesAbout, heldCountExpired, hends, hs, ← ht]
    simp
  refine ⟨fun h1 => ?_, fun h1 => ⟨⟨t, hexec, hmore h1⟩, ?_⟩⟩
  · obtain ⟨hstate, hheld, hclean, hmode⟩ := hone h1
    exact ⟨t, by rw [hnamed, if_pos hstate], hexec, hstate, hheld, hclean, hmode, htable, hop, hreact⟩
  · rw [hnamed, if_neg (by rw [(hmore h1).1]; nofun)]
    rfl

/-! ### JOIN-WAIT (R30, R31) -/

/-- The part that joins holds 64 FILL. -/
theorem State.joined_delay (hr : s.running = true) (hs : s.link.state = .joinWait) (hp : s.framer.position ≠ .outside)
    (hd : s.link.draining = false) : (s.quiet.arrive (.readable .te)).delay = List.replicate 64 .fill := by
  have hp' : (s.afterArrival (.readable .te)).framer.position ≠ .outside := hp
  let w : State := (s.afterArrival (.readable .te)).cutShort.endReported true
  have hw : w.link = s.link := (State.HeardIn.ended hp' .te).link
  have hout : w.inPath = false := by rw [State.inPath, hw, hs]; rfl
  have hended : w.trainEnd true =
      { (w.joinWaitEnd true).clearTrainMarks with framer := w.framer.closed } := by
    rw [State.trainEnd_outOfPath hout, hw, hs]
    rfl
  have hjoin : w.joinWaitEnd true = w.join := by
    rw [State.joinWaitEnd, if_pos rfl, if_neg (by rw [hw, hd]; nofun)]
  have hstay : (w.trainEnd true).leaveIfDue = w.trainEnd true :=
    State.leaveIfDue_none (.inl (by rw [hended, hjoin]; nofun))
  have harr : s.quiet.arrive (.readable .te) = (w.trainEnd true).leaveIfDue :=
    (State.arrive_end (x := .readable .te) hr hp (by simp [LineSymbol.taken])).trans (if_neg nofun)
  rw [harr, hstay, hended, hjoin]
  rfl

/-- Settles O43: the end as JOIN-WAIT takes it. -/
theorem aPartJoinsAtATrainEnd : Obligations.APartJoinsAtATrainEnd := by
  unfold Obligations.APartJoinsAtATrainEnd
  intro s hr hs hp
  have hi : s.inPath = false := by rw [State.inPath, hs]; rfl
  have hdn : (s.quiet.arrive (.readable .te)).dn = if s.link.draining = true then [] else [LineSymbol.readable .te] := by
    have hafter : (s.afterArrival (.readable .te)).dn = if s.link.draining = true then [] else [LineSymbol.readable .te] := by
      show (if s.link.draining = true then [] else if s.inPath = true then _ else [LineSymbol.readable .te]) = _
      rw [hi, if_neg Bool.false_ne_true]
    rw [State.arrive_running _ hr]
    simpa using hafter
  obtain ⟨clean, -, hlink⟩ := State.arrive_end_outside (x := .readable .te) hr hi hp (.inl (by simp [LineSymbol.taken]))
  rw [Link.afterEnd, hs] at hlink
  have hte : (s.quiet.arrive (.readable .te)).link =
      if s.link.draining then s.link else { s.link with state := .inline, bypassClosed := false } := hlink
  refine ⟨⟨_, rfl, fun hd => ⟨State.joined_delay hr hs hp hd, ?_, ?_⟩, fun hd => ⟨?_, ?_, ?_⟩⟩, fun x hx => ?_⟩
  · rw [hdn, if_neg (by rw [hd]; nofun)]
  · rw [hte, if_neg (by rw [hd]; nofun)]
  · refine (State.watched_arrival hi hr _).delay.resolve_right fun h => ?_
    rw [hte, if_pos hd, hs] at h
    cases h.2
  · rw [hdn, if_pos hd]
  · rw [hte, if_pos hd]
  · have hends : x ∈ [Symbol.te, .ta, .ts] ∧ (x == .te) = false := by
      simp only [List.mem_cons, List.not_mem_nil, or_false] at hx
      rcases hx with rfl | rfl <;> exact ⟨by simp, rfl⟩
    obtain ⟨clean, -, hlink⟩ := State.arrive_end_outside (x := .readable x) hr hi hp (.inl hends.1)
    rw [show LineSymbol.taken (.readable x) = x from rfl, hends.2, Link.afterEnd, hs] at hlink
    refine ⟨_, rfl, hlink, (State.watched_arrival hi hr _).delay.resolve_right fun h => ?_⟩
    rw [hlink] at h
    cases h.2

/-! ### ACQUIRE (R29) -/

/-- A TE ends a clean train exactly in the body of one that has not been faulted: a cut faults its train, and SKIP stands in one. -/
theorem State.cutShort_clean (h : s.framer.position = .skip → s.framer.trainFaulted = true) :
    ((s.cutShort.endReported true).framer.readable && !(s.cutShort.endReported true).framer.trainFaulted) = true ↔
      s.framer.position = .body ∧ s.framer.trainFaulted = false := by
  have hf (v : State) : (v.endReported true).framer = v.framer := by
    unfold State.endReported
    repeat' split
    all_goals simp
  rw [hf]
  cases hp : s.framer.position <;> simp [State.cutShort, hp, Framer.readable, State.cutRecord, State.markFaulted, State.setPosition]
  case skip => exact h hp

/-- Settles O42: a clean end, any other TE, and the breaks, each by the count it leaves. -/
theorem theSecondCleanTrainLeadsToJoinWait : Obligations.TheSecondCleanTrainLeadsToJoinWait := by
  unfold Obligations.TheSecondCleanTrainLeadsToJoinWait
  intro s hl hr hs hp a clean ended
  have hplaced := (State.placed_iff s).1 hl.2.2.1
  have hi : s.inPath = false := by rw [State.inPath, hs]; rfl
  have hcount := hplaced.seated.link.clean
  have hp' : a.framer.position ≠ .outside := hp
  let w : State := a.cutShort.endReported true
  have hw : w.link = s.link := (State.HeardIn.ended hp' .te).link
  have hout : w.inPath = false := by rw [State.inPath, hw]; exact hi
  have harr : s.quiet.arrive (.readable .te) = w.trainEnd true := by
    refine ((State.arrive_end (x := .readable .te) hr hp (by simp [LineSymbol.taken])).trans (if_neg nofun)).trans ?_
    have hstay : (w.trainEnd true).link.state ≠ .leaveWait := by
      rw [State.trainEnd_link hout, hw]
      exact Link.afterEnd_notLeaving hi _ _
    exact State.leaveIfDue_none (.inl hstay)
  have hlink : (s.quiet.arrive (.readable .te)).link = s.link.countClean (w.framer.readable && !w.framer.trainFaulted) := by
    rw [harr, State.trainEnd_link hout, hw, Link.afterEnd, hs]
    rfl
  have hskip : s.framer.position = .skip → s.framer.trainFaulted = true := fun h => by
    have := hplaced.counts
    rw [Framer.counts, h] at this
    exact this.2.2
  have hclean : (w.framer.readable && !w.framer.trainFaulted) = true ↔ clean := State.cutShort_clean (s := a) hskip
  have hfull (hc : clean) : s.quiet.arrive (.readable .te) = ended (s.link.countClean true) := by
    have hwa : w = a := by
      show a.cutShort.endReported true = a
      have hbody : a.framer.position = .body := hc.1
      rw [State.cutShort, hbody, State.endReported, Framer.readable, hbody]
      rfl
    have hcl := hclean.2 hc
    rw [harr, State.trainEnd_outOfPath hout, hw, hs, Bool.true_and, hcl, hwa]
    rfl
  have hnamed : exec .joinWaitEntry s = if (s.quiet.arrive (.readable .te)).link.state = .joinWait
      then .next (s.quiet.arrive (.readable .te)) else .next s.quiet := by
    simp only [exec, execJoinWaitEntry, State.comesAbout, joinWaitEntered, hs]
    simp
  refine ⟨fun hc h1 => ?_, fun hc h0 => ?_, fun hc => ⟨_, rfl, ?_⟩, fun x hx => ⟨_, rfl, ?_⟩, fun hno => ?_⟩
  · have htwo : s.link.countClean true = { s.link with state := .joinWait, cleanCount := 0 } := by simp [Link.countClean, h1]
    have hentry : exec .joinWaitEntry s = .next (s.quiet.arrive (.readable .te)) := by
      rw [hnamed, if_pos (by rw [hfull hc, htwo])]
    exact ⟨by rw [hentry, hfull hc, htwo], hentry.symm⟩
  · have hone : s.link.countClean true = { s.link with cleanCount := 1 } := by simp [Link.countClean, h0]
    exact congrArg Host.Outcome.next (by rw [hfull hc, hone])
  · exact hlink.trans (by rw [Bool.eq_false_iff.2 fun h => hc (hclean.1 h)]; rfl)
  · have hne : x.taken ≠ .te := by
      rcases hx with hx | hx
      · intro h
        rw [h] at hx
        simp at hx
      · exact hx.2
    have hends : x.taken ∈ [Symbol.te, .ta, .ts] ∨ (s.framer.counts 0 2048 ∧ s.framer.symbolCount = 2047) :=
      hx.imp (fun h => List.mem_cons_of_mem _ h) fun h => ⟨hplaced.counts, h.1⟩
    obtain ⟨c, hc, hlink⟩ := State.arrive_end_outside hr hi hp hends
    rw [Link.afterEnd, hs, Bool.eq_false_iff.2 fun h => hne (hc h)] at hlink
    exact hlink
  · rw [hnamed, if_neg]
    · rfl
    · rw [hlink, Link.countClean]
      repeat' split
      next hcl h2 => exact absurd ⟨hclean.1 hcl, by omega⟩ hno
      all_goals
        show s.link.state ≠ _
        rw [hs]
        nofun

/-! ### LEAVE-WAIT (R32) -/

/-- Settles O44: the FILL after which the look at the leave decides. -/
theorem aPartLeavesInAGapOfFill : Obligations.APartLeavesInAGapOfFill := by
  unfold Obligations.APartLeavesInAGapOfFill
  intro s oldest rest hr hs hd hp hdelay hlen moved ready
  have hi : s.inPath = true := by rw [State.inPath, hs]; rfl
  obtain ⟨hline, hdn⟩ := State.afterArrival_inPath hi hd (.readable .fill) hdelay
  have hmoved : s.afterArrival (.readable .fill) = moved := by
    have h : s.afterArrival (.readable .fill) = { s.afterArrival (.readable .fill) with
      dn := (s.afterArrival (.readable .fill)).dn, delay := (s.afterArrival (.readable .fill)).delay } := rfl
    rw [hline, hdn] at h
    rw [h]
    unfold State.afterArrival
    simp [hp, moved, LineSymbol.taken]
  have htake : (s.afterArrival (.readable .fill)).takeSymbol .fill = moved := by
    rw [State.takeSymbol_at (s := s.afterArrival (.readable .fill)) hp]
    exact hmoved
  have harrive : s.quiet.arrive (.readable .fill) = moved.leaveIfDue := State.arrive_betweenTrains hr htake hp
  have hdue : moved.leaveDue = true ↔ ready := by
    have hfill : (Symbol.fill :: rest = fillDelay) ↔ rest = List.replicate 63 .fill := by
      show Symbol.fill :: rest = Symbol.fill :: List.replicate 63 .fill ↔ _
      simp
    have hopen : moved.framer.trainOpen = false := by
      rw [← Bool.not_eq_true, Framer.trainOpen_iff, not_not]
      exact hp
    have hidle : s.op.slot.isIdle = true ↔ s.op.slot = .idle := by cases s.op.slot <;> simp [OperationSlot.isIdle]
    unfold State.leaveDue
    rw [hopen]
    simp only [Bool.and_eq_true, beq_iff_eq]
    show ((s.link.state = .leaveWait ∧ (!false) = true) ∧ Symbol.fill :: rest = fillDelay) ∧ s.op.slot.isIdle = true ↔ _
    rw [hfill, hidle]
    exact ⟨fun h => ⟨h.1.2, h.2⟩, fun h => ⟨⟨⟨hs, rfl⟩, h.1⟩, h.2⟩⟩
  have hnamed : exec .leavingThePath s =
      if moved.leaveIfDue.link.state = .held then .next moved.leaveIfDue else .next s.quiet := by
    simp only [exec, execLeavingThePath, State.comesAbout, leftThePath, harrive, hi]
    simp
  have harr : exec (.symbolArrival (.readable .fill)) s = .next moved.leaveIfDue := congrArg Host.Outcome.next harrive
  rw [hnamed, harr]
  refine ⟨fun h => ?_, fun h => ?_⟩
  · rw [State.leaveIfDue, if_pos (hdue.2 h)]
    exact ⟨if_pos rfl, (if_pos rfl).symm⟩
  · rw [State.leaveIfDue, if_neg fun hc => h (hdue.1 hc)]
    refine ⟨rfl, if_neg ?_⟩
    show s.link.state ≠ _
    rw [hs]
    nofun

end

end Sys2Proof.Machine
end

section
/-! PROOF. A data record in a train with room for it: the capture, the judgement of an ARMED or a TRIAL entry, and the reaction (R69 to R90, R106
to R117, R173, R174). -/

namespace Sys2Proof.Machine

/-! ### The watched field and the templates, in the words of the statements -/

theorem EntryConfig.value_eq (c : EntryConfig) (payload : List Byte) : c.value payload = c.fieldValue payload := rfl

theorem EntryConfig.conforms_eq (c : EntryConfig) (previous : Option Word) (v : Word) : c.conforms previous v = c.meets previous v := by
  have hle (x y : Word) : lessEq c.signed x y =
      decide ((if c.signed = true then x.toInt else (x.toNat : Int)) ≤ if c.signed = true then y.toInt else (y.toNat : Int)) := by
    rw [Bool.eq_iff_iff, lessEq_iff, decide_eq_true_iff]
    split
    · rfl
    · exact Int.ofNat_le.symm
  unfold EntryConfig.conforms EntryConfig.meets
  cases c.kind
  case window =>
    dsimp only
    rw [hle, hle]
  case pattern => rfl
  case delta =>
    cases previous
    case none => rfl
    case some p =>
      dsimp only
      rw [← Bool.decide_and]
      refine decide_eq_decide.2 ?_
      unfold numberOf
      omega

/-- A record conforms exactly when its verdict says so (R73 to R76). -/
theorem Entry.verdict_ok (e : Entry) (payload : List Byte) : (e.verdict payload).ok = e.accepts payload := by
  unfold Entry.verdict Entry.accepts
  rw [EntryConfig.value_eq]
  cases e.config.fieldValue payload
  case none => rfl
  case some v =>
    dsimp only
    rw [EntryConfig.conforms_eq]
    cases e.config.meets e.live.previous v <;> rfl

/-! ### The live fields after a judged record -/

theorem saturate_eq {limit n : Nat} (h : n ≤ limit) : saturate limit n = min limit (n + 1) := by
  unfold saturate
  split <;> omega

theorem Live.remember_eq (e : Entry) (l : Live) (hl : l.previous = e.live.previous) (payload : List Byte) :
    l.remember e.config.kind (e.config.value payload) = { l with previous := e.previousAfter payload } := by
  rw [EntryConfig.value_eq]
  unfold Live.remember Entry.previousAfter
  cases e.config.kind <;> cases e.config.fieldValue payload <;> simp [← hl]

/-- A TRIPPED entry keeps its condition; its record says whether it has recovered (R80). -/
theorem Live.moveCondition_tripped {l : Live} (h : l.condition = .tripped) (d : Nat) (ok : Bool) :
    l.moveCondition d ok = { l with recovered := ok } := by
  unfold Live.moveCondition
  cases ok <;> simp [h]

theorem Live.moveCondition_good {l : Live} (h : l.condition ≠ .tripped) (d : Nat) :
    l.moveCondition d true = { l with condition := .conforming, run := 0, recovered := false } := by
  unfold Live.moveCondition
  cases hc : l.condition
  case tripped => exact absurd hc h
  all_goals rfl

/-- Outside TRIPPED a bad record lengthens the run, up to the trip (R79). -/
theorem Live.moveCondition_bad {l : Live} (h : l.condition ≠ .tripped) (d : Nat) :
    l.moveCondition d false =
      if l.run + 1 < d then { l with condition := .suspect, run := l.run + 1, recovered := false }
      else { l with condition := .tripped, run := d, recovered := false } := by
  unfold Live.moveCondition
  cases hc : l.condition
  case tripped => exact absurd hc h
  all_goals rfl

/-- A trip is told by the condition and the run. -/
theorem Live.tripsNow_congr {l l' : Live} (hc : l.condition = l'.condition) (hr : l.run = l'.run) (d : Nat) (ok : Bool) :
    l.tripsNow d ok = l'.tripsNow d ok := by
  unfold Live.tripsNow
  rw [hc]
  by_cases ht : l'.condition = .tripped
  · rw [ht]; rfl
  · congr 2
    cases ok
    · rw [Live.moveCondition_bad (hc ▸ ht), Live.moveCondition_bad ht, hr]
      split <;> rfl
    · rw [Live.moveCondition_good (hc ▸ ht), Live.moveCondition_good ht]

/-- The live fields that a record of an ARMED entry leaves whatever its verdict: timing and memory (R72, R76). -/
def Entry.seenLive (e : Entry) (payload : List Byte) : Live :=
  { e.live with timing := .fresh, since := 0, miss := 0, previous := e.previousAfter payload }

section

variable {e : Entry} {payload : List Byte}

/-- The judgement of an ARMED entry's record (R72 to R82). -/
theorem Entry.judgedLive_eq (h : e.LawParts) :
    e.judgedLive payload =
      if e.accepts payload = true then (e.seenLive payload).moveCondition e.config.deglitch true
      else Live.countTrip
        (e.tripsOn payload)
        (Live.moveCondition e.config.deglitch false
          { e.seenLive payload with nonconforming := min 65535 (e.live.nonconforming + 1) }) := by
  have hmem : e.live.refreshed.remember e.config.kind (e.config.value payload) = e.seenLive payload := Live.remember_eq e e.live.refreshed rfl payload
  unfold Entry.judgedLive
  dsimp only
  rw [Entry.verdict_ok, hmem]
  cases hok : e.accepts payload
  case true =>
    have hno : (e.seenLive payload).tripsNow e.config.deglitch true = false := by
      unfold Live.tripsNow
      by_cases hc : (e.seenLive payload).condition = .tripped
      · rw [hc]; rfl
      · rw [Live.moveCondition_good hc]; exact Bool.and_false _
    rw [Live.countNonconforming, if_pos rfl, if_pos rfl, hno]
    rfl
  case false =>
    have hsat : saturate 65535 (e.seenLive payload).nonconforming = min 65535 (e.live.nonconforming + 1) := saturate_eq h.nonconforming
    rw [Live.countNonconforming, if_neg Bool.false_ne_true, if_neg Bool.false_ne_true, hsat, Entry.tripsOn, Entry.verdict_ok, hok]
    refine congrArg (fun b => Live.countTrip b _) ?_
    exact Live.tripsNow_congr (by rfl) (by rfl) _ _

/-- A bad record trips an entry outside TRIPPED whose run is one short of the deglitch count (R79, R82). -/
theorem Entry.tripsOn_iff : e.tripsOn payload = true ↔
    e.accepts payload = false ∧ e.live.condition ≠ .tripped ∧ ¬ e.live.run + 1 < e.config.deglitch := by
  unfold Entry.tripsOn Live.tripsNow
  rw [Entry.verdict_ok]
  by_cases hc : e.live.condition = .tripped
  · simp [hc]
  · cases hok : e.accepts payload
    · rw [Live.moveCondition_bad hc]
      split <;> simp [*]
    · rw [Live.moveCondition_good hc]
      simp

theorem Entry.judgedLive_good (h : e.LawParts) (hok : e.accepts payload = true) (hc : e.live.condition ≠ .tripped) :
    e.judgedLive payload = { e.seenLive payload with condition := .conforming, run := 0, recovered := false } := by
  rw [Entry.judgedLive_eq h, if_pos hok, Live.moveCondition_good (by exact hc)]

theorem Entry.judgedLive_recovering (h : e.LawParts) (hok : e.accepts payload = true) (hc : e.live.condition = .tripped) :
    e.judgedLive payload = { e.seenLive payload with recovered := true } := by
  rw [Entry.judgedLive_eq h, if_pos hok, Live.moveCondition_tripped (by exact hc)]

theorem Entry.judgedLive_stillBad (h : e.LawParts) (hok : e.accepts payload = false) (hc : e.live.condition = .tripped) :
    e.judgedLive payload =
      { e.seenLive payload with nonconforming := min 65535 (e.live.nonconforming + 1), recovered := false } := by
  have hno : e.tripsOn payload = false := Bool.eq_false_iff.2 fun ht => (Entry.tripsOn_iff.1 ht).2.1 hc
  rw [Entry.judgedLive_eq h, if_neg (by rw [hok]; nofun), hno, Live.moveCondition_tripped (by exact hc)]
  rfl

theorem Entry.judgedLive_suspect (h : e.LawParts) (hok : e.accepts payload = false) (hc : e.live.condition ≠ .tripped)
    (hrun : e.live.run + 1 < e.config.deglitch) :
    e.judgedLive payload =
      { e.seenLive payload with
        nonconforming := min 65535 (e.live.nonconforming + 1), condition := .suspect, run := e.live.run + 1, recovered := false } := by
  have hno : e.tripsOn payload = false := Bool.eq_false_iff.2 fun ht => (Entry.tripsOn_iff.1 ht).2.2 hrun
  rw [Entry.judgedLive_eq h, if_neg (by rw [hok]; nofun), hno, Live.moveCondition_bad (by exact hc), if_pos (by exact hrun)]
  rfl

theorem Entry.judgedLive_trips (h : e.LawParts) (hok : e.accepts payload = false) (hc : e.live.condition ≠ .tripped)
    (hrun : ¬ e.live.run + 1 < e.config.deglitch) :
    e.judgedLive payload =
      { e.seenLive payload with
        nonconforming := min 65535 (e.live.nonconforming + 1), condition := .tripped, run := e.config.deglitch, recovered := false
        trips := min 255 (e.live.trips + 1) } := by
  have htrips : e.tripsOn payload = true := Entry.tripsOn_iff.2 ⟨hok, hc, hrun⟩
  rw [Entry.judgedLive_eq h, if_neg (by rw [hok]; nofun), htrips, Live.moveCondition_bad (by exact hc), if_neg (by exact hrun),
    Live.countTrip, if_pos rfl]
  dsimp only
  rw [saturate_eq (n := (e.seenLive payload).trips) h.trips]
  rfl

end

/-! ### The capture -/

section

variable {s : State} {d : DataRecord} {i : Nat}

/-- A match counted, with its image stored if it fits (R174, steps 1 to 4). -/
theorem OperationUnit.countMatch_eq {c : CaptureFields} (hl : c.lost < 255) (train : Byte) (o : OperationUnit) :
    let fits := d.payload.length + 5 ≤ 512 - o.fifo.length
    o.countMatch c d train =
      { o with
        slot := .capture { c with
          matched := c.matched + 1, without := 0
          stored := if fits then c.stored + 1 else c.stored
          lost := if fits then c.lost else c.lost + 1 }
        fifo := if fits then o.fifo ++ d.captureImage train else o.fifo } := by
  intro fits
  have hlost : saturate 255 c.lost = c.lost + 1 := if_pos hl
  unfold OperationUnit.countMatch
  dsimp only
  rw [hlost]
  by_cases hfit : fits
  · simp only [if_pos hfit]
    exact if_pos hfit
  · simp only [if_neg hfit]
    exact if_neg hfit

/-- A running capture meets the record (R173, R174). -/
theorem State.captureRecord_eq (h : s.tableLawful) : s.captureRecord d = s.afterCapture d := by
  unfold State.captureRecord State.afterCapture
  cases hs : s.op.slot
  case capture c =>
    have hb := ((State.tableLawful_iff s).1 h).2
    rw [OperationUnit.inBounds, hs] at hb
    obtain ⟨hwanted, hmatched, hsum, -, -⟩ := hb
    have htakes : c.takes d = true ↔ d.source = c.source ∧ (c.channelAny = true ∨ d.channel = c.channel) := by
      simp [CaptureFields.takes]
    dsimp only
    by_cases ht : c.takes d = true
    · rw [if_pos ht, if_pos (htakes.1 ht), OperationUnit.countMatch_eq (by omega)]
      by_cases hdone : c.matched + 1 = c.wanted
      · rw [if_pos hdone, if_pos hdone, State.endOperation, State.closeOperation_eq]
        rfl
      · rw [if_neg hdone, if_neg hdone]
        rfl
    · rw [if_neg ht, if_neg fun h => ht (htakes.2 h)]
  all_goals rfl

/-- A capture moves nothing of the table (R174). -/
theorem State.afterCapture_table (d : DataRecord) (s : State) : (s.afterCapture d).table = s.table := by
  unfold State.afterCapture
  split
  · split
    · dsimp only
      split <;> rfl
    · rfl
  · rfl

/-! ### The record's completion -/

/-- The reaction moves the Delay Line alone (R109). -/
theorem State.carryOut_eq (f : Fate) (d : DataRecord) (s : State) : s.carryOut f d = { s with delay := (s.carryOut f d).delay } := by
  cases f <;> rfl

/-- What the capture and the judgement have of the record's completion. -/
structure State.Captured (d : DataRecord) (s a : State) : Prop where
  lawful : a.tableLawful
  table : a.table = s.table
  reaction : a.reaction = s.reaction
  link : a.link = s.link
  delay : a.delay = (s.afterRecord d.wire).delay
  dn : a.dn = (s.afterRecord d.wire).dn
  freeze : a.framer.freezeFlag = s.framer.flags.getLsbD 1

theorem State.Captured.entry {a : State} (h : s.Captured d a) (i : Nat) : a.entry i = s.entry i := by
  rw [State.entry, h.table, State.entry]

theorem State.captured (hl : s.tableLawful) (hready : s.readyFor (d.payload.length + 7)) :
    s.Captured d ((s.afterRecord d.wire).afterCapture d) := by
  have hafter : (s.afterRecord d.wire).tableLawful := hl.frame ⟨rfl, rfl, rfl, rfl⟩
  obtain ⟨-, -, -, hbody, -, -⟩ := hready
  have hfreeze : (s.afterRecord d.wire).framer.freezeFlag = s.framer.flags.getLsbD 1 := Framer.freezeFlag_body hbody
  rw [← State.captureRecord_eq hafter]
  exact
    { lawful := hafter.captureRecord d
      table := by rw [State.captureRecord_eq hafter, State.afterCapture_table]; rfl
      reaction := by simp [State.afterRecord]
      link := by simp [State.afterRecord]
      delay := by simp
      dn := by simp
      freeze := by simpa using hfreeze }

/-- The data record of a train with room for it: the capture, then, unless the train is a FREEZE train, the judgement and the reaction. -/
theorem exec_data (hl : s.lawful) (hready : s.readyFor (d.payload.length + 7)) (hL : d.payload.length ≤ 48) :
    let a := (s.afterRecord d.wire).afterCapture d
    exec (.dataRecordCompletion d.source d.channel d.flags d.payload) s =
      .next (if s.framer.flags.getLsbD 1 = true then a else (a.judge d).react (a.judgeOutcome d) d) := by
  intro a
  obtain ⟨-, -, -, hlaw⟩ := hl
  have ha := State.captured (d := d) hlaw hready
  have hafter : (s.afterRecord d.wire).tableLawful := hlaw.frame ⟨rfl, rfl, rfl, rfl⟩
  have hpath : (s.afterRecord d.wire).inPath = true := hready.2.1
  refine congrArg Host.Outcome.next ((State.arriveData_ready hready hL).trans ?_)
  rw [State.completeData, if_pos hpath, State.captureRecord_eq hafter]
  dsimp only
  rw [ha.freeze]

/-- The lookup of a record whose key no working entry holds (R70). -/
theorem State.lookup_none {a : State} {source channel : Byte}
    (h : ∀ i, (a.entry i).config.source = source → (a.entry i).config.channel = channel →
      (a.entry i).state ≠ .armed ∧ (a.entry i).state ≠ .trial) : a.lookup source channel = none := by
  refine List.findIdx?_eq_none_iff.2 fun e he => ?_
  obtain ⟨i, hi, rfl⟩ := List.mem_iff_getElem.1 he
  have heq : a.entry i = a.table.entries[i] := by
    rw [State.entry, List.getD_eq_getElem?_getD, List.getElem?_eq_getElem hi]
    rfl
  rw [← heq, Bool.and_eq_false_iff]
  by_cases hkey : (a.entry i).config.source = source ∧ (a.entry i).config.channel = channel
  · obtain ⟨h1, h2⟩ := h i hkey.1 hkey.2
    left
    simp [Entry.working, h1, h2]
  · right
    simpa [Entry.hasKey] using hkey

/-- The lookup finds the one working entry that holds the key (R59, R70). -/
theorem State.lookup_some {a : State} (h : a.tableLawful) {source channel : Byte}
    (hw : (a.entry i).state = .armed ∨ (a.entry i).state = .trial) (hsource : (a.entry i).config.source = source)
    (hchannel : (a.entry i).config.channel = channel) : a.lookup source channel = some i := by
  obtain ⟨-, -, hkeys, -⟩ := h
  cases hfound : a.lookup source channel
  case none =>
    have hmem : a.entry i ∈ a.table.entries := (a.entry_eq i).resolve_right fun he => by rcases hw with hw | hw <;> rw [he] at hw <;> cases hw
    have := List.findIdx?_eq_none_iff.1 hfound _ hmem
    rcases hw with hw | hw <;> simp [Entry.working, Entry.hasKey, hw, hsource, hchannel] at this
  case some j =>
    obtain ⟨hlt, hp, -⟩ := List.findIdx?_eq_some_iff_getElem.1 hfound
    have heq : a.entry j = a.table.entries[j] := by
      rw [State.entry, List.getD_eq_getElem?_getD, List.getElem?_eq_getElem hlt]
      rfl
    rw [← heq] at hp
    have hworks := State.lookup_works hfound
    simp only [Bool.and_eq_true, Entry.hasKey, beq_iff_eq] at hp
    by_contra hne
    exact hkeys j i (fun hji => hne (by rw [hji])) hworks hw ⟨hp.2.1.trans hsource.symm, hp.2.2.trans hchannel.symm⟩

/-- The newest n places blanked (R109). -/
theorem overwriteNewest_fill (n : Nat) (delay : List Symbol) :
    overwriteNewest (List.replicate n .fill) delay = overRecord n none delay := by
  simp [overwriteNewest, overRecord]

/-- A record that no working entry judges, and one for an entry in TRIAL, passes unless isolation blanks it in ACTIVE (R90, R106). -/
theorem State.react_passing {a : State} {o : Outcome} (hf : a.framer.freezeFlag = false) (ho : o.fate = .pass) :
    a.react o d =
      if a.link.mode = .active ∧ a.reaction.isolated = true then { a with delay := overRecord (d.payload.length + 7) none a.delay } else a := by
  unfold State.react State.fate
  rw [if_neg (by rw [hf]; nofun), ho]
  cases hm : a.link.mode
  case observe => rfl
  case active =>
    cases hi : a.reaction.isolated
    · rfl
    · exact congrArg (fun l => ({ a with delay := l } : State)) (overwriteNewest_fill _ _)

/-- Settles O51: the capture's taking, and what a record that meets no entry comes to. -/
theorem aCaptureTakesMatchingRecords : Obligations.ACaptureTakesMatchingRecords := by
  unfold Obligations.ACaptureTakesMatchingRecords
  intro d s hl hready hL a freeze hcase
  have ha := State.captured (d := d) hl.2.2.2 hready
  rw [exec_data hl hready hL]
  refine congrArg Host.Outcome.next ?_
  by_cases hf : freeze
  · rw [if_pos hf, if_neg fun h => h.1 hf]
  · have hnone : a.lookup d.source d.channel = none := by
      refine State.lookup_none fun i hsource hchannel => ?_
      rw [ha.entry i] at hsource hchannel ⊢
      exact hcase.resolve_left hf i hsource hchannel
    have hpass : (a.judge d).react (a.judgeOutcome d) d = a.react .noEntry d := by
      rw [State.judge, State.judgeOutcome, hnone]
    rw [if_neg hf, hpass, State.react_passing (by rw [ha.freeze]; exact Bool.eq_false_iff.2 hf) rfl, ha.link, ha.reaction]
    by_cases hact : s.link.mode = .active ∧ s.reaction.isolated = true
    · rw [if_pos hact, if_pos ⟨hf, hact⟩]
    · rw [if_neg hact, if_neg fun h => hact h.2]

/-! ### An ARMED entry's record -/

/-- The judgement of a record that an ARMED entry's key names. -/
theorem State.judge_armed {a : State} (h : a.tableLawful) (harmed : (a.entry i).state = .armed)
    (hsource : (a.entry i).config.source = d.source) (hchannel : (a.entry i).config.channel = d.channel) :
    a.judge d = a.judgeArmed i d ∧
      a.judgeOutcome d = .armed i ((a.entry i).verdict d.payload) ((a.entry i).judgedLive d.payload).condition (a.entry i).config.reaction
        (a.entry i).config.latch (a.entry i).config.slot := by
  have hfound := State.lookup_some h (.inl harmed) hsource hchannel
  have htrial : ¬ ((a.entry i).state == .trial) = true := by rw [harmed]; nofun
  rw [State.judge, State.judgeOutcome, hfound]
  exact ⟨if_neg htrial, if_neg htrial⟩

/-- The entry with the live fields of its judged record. -/
def State.withLive (i : Nat) (l : Live) (s : State) : State :=
  { s with table := { s.table with entries := s.table.entries.set i { s.entry i with live := l } } }

theorem State.updateEntry_live (s : State) (i : Nat) (l : Live) : (s.updateEntry i fun x => { x with live := l }) = s.withLive i l :=
  State.updateEntry_eq_set s i _

/-- A TRIPPED entry's good record recovers it, once (R80, R87). -/
theorem State.judgeArmed_tripped {a : State} (h : a.tableLawful) (hc : (a.entry i).live.condition = .tripped) :
    ((a.entry i).accepts d.payload = true → a.judgeArmed i d =
      if (a.entry i).live.recovered = true then a.withLive i { (a.entry i).seenLive d.payload with recovered := true }
      else (a.withLive i { (a.entry i).seenLive d.payload with recovered := true }).pushIncident .recover (some i)
        ((a.entry i).config.fieldValue d.payload)) ∧
    ((a.entry i).accepts d.payload = false → a.judgeArmed i d =
      a.withLive i { (a.entry i).seenLive d.payload with
        nonconforming := min 65535 ((a.entry i).live.nonconforming + 1), recovered := false }) := by
  have hlaw := h.entries.lawful i
  have htrips : ¬ (a.entry i).tripsOn d.payload = true := fun ht => (Entry.tripsOn_iff.1 ht).2.1 hc
  have hstores : ¬ (a.entry i).storesOn d.payload = true := by simp [Entry.storesOn, hc]
  unfold State.judgeArmed
  dsimp only
  rw [if_neg htrips, if_neg hstores]
  refine ⟨fun hok => ?_, fun hok => ?_⟩
  · rw [Entry.judgedLive_recovering hlaw hok hc, State.updateEntry_live, Entry.recoversOn, hc, Entry.verdict_ok, hok]
    cases (a.entry i).live.recovered <;> rfl
  · rw [Entry.judgedLive_stillBad hlaw hok hc, State.updateEntry_live, Entry.recoversOn, Entry.verdict_ok, hok, Bool.and_false]
    rfl

/-- A good record outside TRIPPED (R78, R84). -/
theorem State.judgeArmed_good {a : State} (h : a.tableLawful) (hc : (a.entry i).live.condition ≠ .tripped)
    (hok : (a.entry i).accepts d.payload = true) :
    a.judgeArmed i d =
      (let t := a.withLive i { (a.entry i).seenLive d.payload with condition := .conforming, run := 0, recovered := false }
      if (a.entry i).config.reaction = .substitute then t.fillSlot (a.entry i).config.slot d.payload else t) := by
  have htrips : ¬ (a.entry i).tripsOn d.payload = true := fun ht => by
    have := (Entry.tripsOn_iff.1 ht).1
    rw [hok] at this
    cases this
  have hrecovers : ¬ (a.entry i).recoversOn d.payload = true := by simp [Entry.recoversOn, hc]
  have hstores : (a.entry i).storesOn d.payload = true ↔ (a.entry i).config.reaction = .substitute := by
    simp [Entry.storesOn, Entry.verdict_ok, hok, hc]
  unfold State.judgeArmed
  dsimp only
  rw [if_neg htrips, if_neg hrecovers, Entry.judgedLive_good (h.entries.lawful i) hok hc, State.updateEntry_live]
  by_cases hr : (a.entry i).config.reaction = .substitute
  · rw [if_pos (hstores.2 hr), if_pos hr]
  · rw [if_neg fun hs => hr (hstores.1 hs), if_neg hr]

/-- A bad record outside TRIPPED, below the deglitch count and at it (R79, R82). -/
theorem State.judgeArmed_bad {a : State} (h : a.tableLawful) (hc : (a.entry i).live.condition ≠ .tripped)
    (hok : (a.entry i).accepts d.payload = false) :
    ((a.entry i).live.run + 1 < (a.entry i).config.deglitch → a.judgeArmed i d =
      a.withLive i { (a.entry i).seenLive d.payload with
        nonconforming := min 65535 ((a.entry i).live.nonconforming + 1), condition := .suspect, run := (a.entry i).live.run + 1
        recovered := false }) ∧
    (¬ (a.entry i).live.run + 1 < (a.entry i).config.deglitch → a.judgeArmed i d =
      (a.withLive i { (a.entry i).seenLive d.payload with
        nonconforming := min 65535 ((a.entry i).live.nonconforming + 1), condition := .tripped, run := (a.entry i).config.deglitch
        recovered := false, trips := min 255 ((a.entry i).live.trips + 1) }).tripActions i (a.entry i).config.reaction
          ((a.entry i).config.fieldValue d.payload)) := by
  have hlaw := h.entries.lawful i
  have hrecovers : ¬ (a.entry i).recoversOn d.payload = true := by simp [Entry.recoversOn, hc]
  have hstores : ¬ (a.entry i).storesOn d.payload = true := by simp [Entry.storesOn, Entry.verdict_ok, hok]
  unfold State.judgeArmed
  dsimp only
  refine ⟨fun hrun => ?_, fun hrun => ?_⟩
  · rw [if_neg fun ht => (Entry.tripsOn_iff.1 ht).2.2 hrun, if_neg hrecovers, if_neg hstores, Entry.judgedLive_suspect hlaw hok hc hrun,
      State.updateEntry_live]
  · rw [if_pos (Entry.tripsOn_iff.2 ⟨hok, hc, hrun⟩), Entry.judgedLive_trips hlaw hok hc hrun, State.updateEntry_live]
    rfl

/-- The trip actions in the words of the statements (R82, R116, R180). -/
theorem State.tripActions_eq {a : State} (hidle : a.op.slot = .idle → a.op.pendingAbort = .none) {m : Mode} (hm : a.link.mode = m)
    {isolated : Bool} (hi : a.reaction.isolated = isolated) (i : Nat) (r : Reaction) (v : Option Word) :
    a.tripActions i r v =
      (let u := (a.pushIncident .trip (some i) v).raise .trip
      let w := if r = .isolate ∧ m = .active ∧ isolated = false then u.enterIsolation else u
      if w.op.pendingAbort = .atTrip then (w.operationEnded .aborted keptIncomplete).raise .opdone else w) := by
  have hlink : ((a.pushIncident .trip (some i) v).raise .trip).link = a.link := by simp
  have hreact : ((a.pushIncident .trip (some i) v).raise .trip).reaction = a.reaction := by simp
  unfold State.tripActions State.tripIsolation
  rw [hlink, hreact, hm, hi]
  have hcond : (r == .isolate && m == .active && !isolated) = true ↔ r = .isolate ∧ m = .active ∧ isolated = false := by simp [and_assoc]
  simp only [hcond]
  have hw : ∀ w : State, w.op = a.op → w.tripAbort =
      if w.op.pendingAbort = .atTrip then (w.operationEnded .aborted keptIncomplete).raise .opdone else w := by
    intro w hop
    unfold State.tripAbort
    rw [State.abortOperation_eq]
    by_cases hp : w.op.pendingAbort = .atTrip
    · have hruns : w.op.slot ≠ .idle := fun hs => by
        rw [hop] at hp hs
        rw [hidle hs] at hp
        cases hp
      rw [if_pos (by simpa using hp), if_pos hp, if_neg hruns]
    · rw [if_neg (by simpa using hp), if_neg hp]
  refine hw _ ?_
  split <;> simp

/-- Settles O52: each row of the condition's table, by the judgement that it comes to. -/
theorem aRecordIsJudgedForItsArmedEntry : Obligations.ARecordIsJudgedForItsArmedEntry := by
  unfold Obligations.ARecordIsJudgedForItsArmedEntry
  intro d s i hl hready hL hfreeze e value a good seen bad with_ answers harmed hsource hchannel
  have ha := State.captured (d := d) hl.2.2.2 hready
  have he : a.entry i = e := ha.entry i
  have hjudge := (State.judge_armed (d := d) (i := i) ha.lawful (by rw [he]; exact harmed) (by rw [he]; exact hsource)
    (by rw [he]; exact hchannel)).1
  have answer {t : State} (ht : a.judgeArmed i d = t) : answers t := by
    refine ⟨(t.carryOut (t.fate (a.judgeOutcome d)) d).delay, (exec_data hl hready hL).trans ?_⟩
    rw [if_neg (by rw [hfreeze]; nofun), hjudge, ht, State.react]
    exact congrArg Host.Outcome.next (State.carryOut_eq _ _ _)
  have hwith (l : Live) : a.withLive i l = with_ l := by rw [State.withLive, he]
  refine ⟨fun hok hc => ?_, fun hok hc => ?_, fun hok hc => ?_, fun hok hc hrun => ?_, fun hok hc hrun => ?_⟩
  · have h := State.judgeArmed_good (i := i) (d := d) ha.lawful (by rw [he]; exact hc) (by rw [he]; exact hok)
    rw [he, hwith] at h
    exact answer h
  · have h := (State.judgeArmed_tripped (i := i) (d := d) ha.lawful (by rw [he]; exact hc)).1 (by rw [he]; exact hok)
    rw [he, hwith] at h
    exact answer h
  · have h := (State.judgeArmed_tripped (i := i) (d := d) ha.lawful (by rw [he]; exact hc)).2 (by rw [he]; exact Bool.eq_false_iff.2 hok)
    rw [he, hwith] at h
    exact answer h
  · have h := (State.judgeArmed_bad (i := i) (d := d) ha.lawful (by rw [he]; exact hc) (by rw [he]; exact Bool.eq_false_iff.2 hok)).1
      (by rw [he]; exact hrun)
    rw [he, hwith] at h
    exact answer h
  · have h := (State.judgeArmed_bad (i := i) (d := d) ha.lawful (by rw [he]; exact hc) (by rw [he]; exact Bool.eq_false_iff.2 hok)).2
      (by rw [he]; omega)
    rw [he, hwith] at h
    exact answer (h.trans (State.tripActions_eq (a := with_ _) ha.lawful.idle (congrArg Link.mode ha.link)
      (congrArg ReactionUnit.isolated ha.reaction) i _ _))

/-! ### A TRIAL entry's record -/

/-- The live fields of a TRIAL entry after its record (R88, R89). -/
theorem Entry.trialLive_eq {e : Entry} (h : e.LawParts) {r : TrialResults} (hr : e.live.trial = some r) (streak : Nat) (payload : List Byte) :
    e.trialLive streak payload =
      { (if e.accepts payload = true then
          (if e.live.condition = .tripped then { e.live with recovered := true }
          else { e.live with condition := .conforming, run := 0, recovered := false })
        else if e.live.condition = .tripped then { e.live with recovered := false }
        else if e.live.run + 1 < e.config.deglitch then { e.live with condition := .suspect, run := e.live.run + 1, recovered := false }
        else { e.live with condition := .tripped, run := e.config.deglitch, recovered := false } : Live) with
        previous := e.previousAfter payload
        trial := some { r with
          seen := min 65535 (r.seen + 1)
          nonconforming := if e.accepts payload = true then r.nonconforming else min 65535 (r.nonconforming + 1)
          longestRun := max r.longestRun streak } } := by
  obtain ⟨hseen, hbad, -⟩ := h.results r hr
  have hlong : (if r.longestRun < streak then streak else r.longestRun) = max r.longestRun streak := by split <;> omega
  have hcount (ok : Bool) : r.count ok streak = { r with
      seen := min 65535 (r.seen + 1)
      nonconforming := if ok = true then r.nonconforming else min 65535 (r.nonconforming + 1)
      longestRun := max r.longestRun streak } := by
    rw [TrialResults.count, saturate_eq hseen, saturate_eq (Nat.le_trans hbad hseen), hlong]
  have hmap (ok : Bool) {l : Live} (hl : l.trial = some r) : l.trial.map (TrialResults.count ok streak) = some { r with
      seen := min 65535 (r.seen + 1)
      nonconforming := if ok = true then r.nonconforming else min 65535 (r.nonconforming + 1)
      longestRun := max r.longestRun streak } := by rw [hl, Option.map_some, hcount]
  unfold Entry.trialLive
  dsimp only
  rw [Live.remember_eq e e.live rfl, Entry.verdict_ok]
  by_cases hc : e.live.condition = .tripped
  · rw [Live.moveCondition_tripped (by exact hc), if_pos hc, if_pos hc, hmap _ hr]
    cases e.accepts payload <;> rfl
  · cases e.accepts payload
    · rw [Live.moveCondition_bad (by exact hc), if_neg Bool.false_ne_true, if_neg hc]
      by_cases hrun : e.live.run + 1 < e.config.deglitch
      · rw [if_pos (by exact hrun), if_pos hrun, hmap _ hr]
      · rw [if_neg (by exact hrun), if_neg hrun, hmap _ hr]
    · rw [Live.moveCondition_good (by exact hc), if_pos rfl, if_neg hc, hmap _ hr]

/-- Settles O53: the capture of another operation cannot run, and the record passes but for isolation. -/
theorem aRecordIsJudgedForItsTrialEntry : Obligations.ARecordIsJudgedForItsTrialEntry := by
  unfold Obligations.ARecordIsJudgedForItsTrialEntry
  intro d s i r hl hready hL hfreeze e a good streak moved results e' htrial hsource hchannel hr
  have hlaw := hl.2.2.2
  obtain ⟨t, hslot, -⟩ := (hlaw.2.2.2.2.1 i).1 htrial
  have hcapture : a.afterCapture d = a := by
    have hslot' : a.op.slot = .trial t := hslot
    rw [State.afterCapture, hslot']
  have ha := State.captured (d := d) hlaw hready
  rw [show (s.afterRecord d.wire).afterCapture d = a from hcapture] at ha
  have he : a.entry i = e := rfl
  have hfound := State.lookup_some ha.lawful (.inr htrial) hsource hchannel
  have hstate : ((a.entry i).state == .trial) = true := beq_iff_eq.2 htrial
  have hjudge : a.judge d = a.judgeTrial i d ∧ a.judgeOutcome d = .trial i := by
    rw [State.judge, State.judgeOutcome, hfound]
    exact ⟨if_pos hstate, if_pos hstate⟩
  have hstreak : nextStreak (e.verdict d.payload).ok a.trialStreak = streak := by
    rw [Entry.verdict_ok, nextStreak, saturate_eq (n := a.trialStreak) hlaw.entries.streak]
    rfl
  have hjudged : a.judgeTrial i d = { a with trialStreak := streak, table := { a.table with entries := a.table.entries.set i e' } } := by
    unfold State.judgeTrial
    dsimp only
    rw [he, hstreak, State.updateEntry_live, Entry.trialLive_eq (hlaw.entries.lawful i) hr, State.withLive, he]
  refine (exec_data hl hready hL).trans (congrArg Host.Outcome.next ?_)
  rw [show (s.afterRecord d.wire).afterCapture d = a from hcapture, if_neg (by rw [hfreeze]; nofun), hjudge.1, hjudge.2, hjudged,
    State.react_passing (by exact ha.freeze.trans hfreeze) rfl]
  dsimp only
  by_cases hact : s.link.mode = .active ∧ s.reaction.isolated = true
  · rw [if_pos (by exact hact), if_pos hact]
  · rw [if_neg (by exact hact), if_neg hact]

/-! ### The reaction -/

/-- A record rewritten over its own places (R109, R110 to R115). -/
theorem overwriteNewest_record {d' : DataRecord} (h : d'.payload.length = d.payload.length) (delay : List Symbol) :
    overwriteNewest d'.wire.symbols delay = overRecord (d.payload.length + 7) (some d') delay := by
  have hlen : d'.wire.symbols.length = d.payload.length + 7 := by simp [DataRecord.wire, h]
  rw [overwriteNewest, overRecord, hlen]

/-- A record that stands in its places already. -/
theorem overRecord_same (d : DataRecord) (s : State) :
    overRecord (d.payload.length + 7) (some d) (s.afterRecord d.wire).delay = (s.afterRecord d.wire).delay := by
  have hlen : d.payload.length + 7 = d.wire.symbols.reverse.length := by simp [DataRecord.wire]
  obtain ⟨tail, htail⟩ : ∃ tail, (s.afterRecord d.wire).delay = d.wire.symbols.reverse ++ tail := ⟨_, rfl⟩
  rw [htail, overRecord, hlen, List.drop_left]

/-- The reaction carried out over the record's places, for a part that is not isolated (R110 to R115). -/
theorem State.carryOut_reaction (r : Reaction) (slot : Nat) (t : State) :
    r ≠ .pass → (t.carryOut (r.fate slot) d).delay =
      overRecord (d.payload.length + 7) (reactedRecord r (t.reaction.store.getD slot []) d) t.delay := by
  intro hr
  cases r
  case pass => exact absurd rfl hr
  case mark =>
    have hlen : d.marked.payload.length = d.payload.length := rfl
    exact overwriteNewest_record hlen t.delay
  case drop | isolate => exact overwriteNewest_fill _ _
  case substitute =>
    show overwriteNewest (t.substituteFor slot d).wire.symbols t.delay = overRecord _ (reactedRecord .substitute (t.slotContent slot) d) _
    unfold State.substituteFor reactedRecord
    generalize t.slotContent slot = content
    have hserves : slotServes content d = true ↔ content ≠ [] ∧ content.length = d.payload.length := by simp [slotServes]
    by_cases hs : slotServes content d = true
    · rw [if_pos hs, if_pos (hserves.1 hs)]
      have hlen : (d.substituted content).payload.length = d.payload.length := (hserves.1 hs).2
      exact overwriteNewest_record hlen t.delay
    · rw [if_neg hs, if_neg fun h => hs (hserves.2 h)]
      have hlen : d.marked.payload.length = d.payload.length := rfl
      exact overwriteNewest_record hlen t.delay

/-- An entry that is no running trial's keeps itself when the operation ends. -/
theorem State.closeOperation_entry (h : ∀ r, s.op.slot = .trial r → r.entry ≠ i) (c : EndCause) (how : TrialLeave) :
    (s.closeOperation c how).entry i = s.entry i := by
  unfold State.closeOperation
  split
  · rfl
  · rfl
  next r hr => exact State.entry_updateEntry_ne s (Entry.leaveTrial how) (h r hr).symm

theorem State.abortOperation_entry (h : ∀ r, s.op.slot = .trial r → r.entry ≠ i) : s.abortOperation.entry i = s.entry i := by
  unfold State.abortOperation State.endOperation
  split
  · rfl
  · exact (State.entry_congr (s := s.closeOperation .aborted .incomplete) (by simp) i).trans (State.closeOperation_entry h _ _)

/-- The trip's own entry keeps its judged fields, and the trip's actions fill no slot. -/
theorem State.tripActions_kept (h : ∀ r, s.op.slot = .trial r → r.entry ≠ i) (r : Reaction) (v : Option Word) :
    (s.tripActions i r v).entry i = s.entry i ∧ (s.tripActions i r v).reaction.store = s.reaction.store := by
  refine ⟨?_, by simp⟩
  unfold State.tripActions State.tripAbort
  have htable : (((s.pushIncident .trip (some i) v).raise .trip).tripIsolation r).table = s.table := by simp
  have hop : (((s.pushIncident .trip (some i) v).raise .trip).tripIsolation r).op = s.op := by simp
  split
  · exact (State.abortOperation_entry (by rw [hop]; exact h)).trans (by rw [State.entry, htable, State.entry])
  · rw [State.entry, htable, State.entry]

/-- What the judgement of an ARMED entry's record leaves of the entry, and, if that is TRIPPED, of the store. -/
theorem State.judgeArmed_kept {a : State} (h : a.tableLawful) (harmed : (a.entry i).state = .armed) :
    ((a.judgeArmed i d).entry i).live = (a.entry i).judgedLive d.payload ∧
      (((a.entry i).judgedLive d.payload).condition = .tripped → (a.judgeArmed i d).reaction.store = a.reaction.store) := by
  have hlt : i < a.table.entries.length := by
    by_contra hge
    rw [State.entry_beyond (by omega)] at harmed
    cases harmed
  let u : State := a.updateEntry i fun x => { x with live := (a.entry i).judgedLive d.payload }
  have hu : (u.entry i).live = (a.entry i).judgedLive d.payload := by rw [State.entry_updateEntry _ _ _ hlt]
  have hother : ∀ r, u.op.slot = .trial r → r.entry ≠ i := fun r hr hi => by
    have htrial := (h.2.2.2.2.1 i).2 ⟨r, hr, hi⟩
    rw [harmed] at htrial
    cases htrial
  unfold State.judgeArmed
  dsimp only
  split
  · obtain ⟨hentry, hstore⟩ := State.tripActions_kept hother (a.entry i).config.reaction ((a.entry i).config.value d.payload)
    exact ⟨(congrArg Entry.live hentry).trans hu, fun _ => hstore⟩
  split
  · exact ⟨(congrArg Entry.live (State.entry_congr (by simp [u]) i)).trans hu, fun _ => by simp⟩
  split
  next hs =>
    refine ⟨hu, fun hc => ?_⟩
    simp only [Entry.storesOn, Entry.verdict_ok, Bool.and_eq_true, bne_iff_ne] at hs
    rw [Entry.judgedLive_good (h.entries.lawful i) hs.1.2 hs.2] at hc
    cases hc
  · exact ⟨hu, fun _ => rfl⟩

/-- Settles O54: isolation as the judgement leaves it, then the entry's condition as the judgement leaves it. -/
theorem aTrippedEntryReactsToItsRecords : Obligations.ATrippedEntryReactsToItsRecords := by
  unfold Obligations.ATrippedEntryReactsToItsRecords
  intro d s t i hl hready hL hfreeze hmode e a n harmed hsource hchannel hexec
  have ha := State.captured (d := d) hl.2.2.2 hready
  let c : State := (s.afterRecord d.wire).afterCapture d
  have he : c.entry i = e := ha.entry i
  obtain ⟨hjudge, houtcome⟩ := State.judge_armed (d := d) (i := i) ha.lawful (by rw [he]; exact harmed) (by rw [he]; exact hsource)
    (by rw [he]; exact hchannel)
  obtain ⟨hlive, hstore⟩ := State.judgeArmed_kept (d := d) (i := i) ha.lawful (by rw [he]; exact harmed)
  rw [he] at houtcome hlive hstore
  rw [exec_data hl hready hL, if_neg (by rw [hfreeze]; nofun), hjudge, houtcome] at hexec
  let j : State := c.judgeArmed i d
  let o : Outcome := .armed i (e.verdict d.payload) (e.judgedLive d.payload).condition e.config.reaction e.config.latch e.config.slot
  have ht : j.react o d = t := Host.Outcome.next.inj hexec
  have hdelay : j.delay = a.delay := (State.judgeArmed_frame i d c).2.2.2.2.2.2.2.1.trans ha.delay
  have hdn : j.dn = a.dn := (State.judgeArmed_frame i d c).2.2.2.1.trans ha.dn
  have hframer : j.framer = c.framer := (State.judgeArmed_frame i d c).2.2.2.2.1
  have hlink : j.link = c.link := (State.judgeArmed_frame i d c).2.2.2.2.2.1
  have hfate : j.fate o = if j.reaction.isolated = true then .blank else o.fate := by
    have hno : ¬ j.framer.freezeFlag = true := by rw [hframer, ha.freeze, hfreeze]; nofun
    have hact : ¬ (j.link.mode == .observe) = true := by rw [hlink, ha.link, hmode]; nofun
    rw [State.fate, if_neg hno, if_neg hact]
  have hmoved : t = { j with delay := (j.carryOut (j.fate o) d).delay } := ht.symm.trans (State.carryOut_eq _ _ _)
  have happlies : reactionApplies (e.verdict d.payload) (e.judgedLive d.payload).condition e.config.latch = true ↔
      (e.judgedLive d.payload).condition = .tripped ∧ (e.accepts d.payload = false ∨ e.config.latch = true) := by
    simp [reactionApplies, Entry.verdict_ok]
  have hreaction : t.reaction = j.reaction := by rw [hmoved]
  have hentry : (t.entry i).live = e.judgedLive d.payload := by
    rw [hmoved]
    exact hlive
  refine ⟨by rw [hmoved]; exact hdn, ?_⟩
  rw [hreaction, hentry, show t.delay = (j.carryOut (j.fate o) d).delay by rw [hmoved], hfate]
  by_cases hi : j.reaction.isolated = true
  · rw [if_pos hi, if_pos hi, ← hdelay]
    exact overwriteNewest_fill _ _
  · rw [if_neg hi, if_neg hi]
    show (j.carryOut (if reactionApplies _ _ _ = true then _ else _) d).delay = _
    by_cases hr : (e.judgedLive d.payload).condition = .tripped ∧ (e.accepts d.payload = false ∨ e.config.latch = true)
    · rw [if_pos (happlies.2 hr), if_pos hr]
      by_cases hpass : e.config.reaction = .pass
      · rw [hpass]
        exact hdelay.trans (overRecord_same d s).symm
      · rw [State.carryOut_reaction _ _ _ hpass, hstore hr.1, ha.reaction, hdelay]
    · rw [if_neg fun h => hr (happlies.1 h), if_neg hr]
      exact hdelay

end

end Sys2Proof.Machine
end

section
/-! PROOF. The end of a train in the path, block by block: the reports it comes with, the timing update, the counts of the long operations
and the header's CLR (R21, R22, R93 to R96, R102, R137, R175, R178, R182). -/

namespace Sys2Proof.Machine

/-! ### The part as the end finds it -/

theorem State.trainFlag_eq (s : State) (k : Nat) : s.trainFlag k = (s.framer.readable && s.framer.flags.getLsbD k) := by
  unfold State.trainFlag Framer.readable
  cases s.framer.position <;> rfl

/-- The part that the end of a train takes, after at most k reports since the occasion began: its blocks are the same, LINK and QFULL may
have risen, and LINK incidents may have joined the queue. -/
structure State.Found (k : Nat) (s u : State) : Prop where
  link : u.link = s.link
  table : u.table = s.table
  streak : u.trialStreak = s.trialStreak
  reaction : u.reaction = s.reaction
  op : u.op = s.op
  levels : u.alert.levels = s.alert.levels
  sequence : u.framer.sequence = s.framer.sequence
  freeze : u.framer.freezeFlag = s.trainFlag 1
  clr : u.framer.clrFlag = s.trainFlag 0
  factors : u.alert.flags = { s.alert.flags with link := u.alert.flags.link, qfull := u.alert.flags.qfull }
  qfullStays : s.alert.flags.qfull = true → u.alert.flags.qfull = true
  queue : ∃ ys, u.queue.items = s.queue.items ++ ys ∧ ys.length ≤ k ∧ ∀ y ∈ ys, y.kind = .link

section

variable {s a t u v w : State} {x : LineSymbol} {k m n i : Nat}

/-- What was heard in a train that had the same blocks. -/
theorem State.HeardIn.found (h : a.HeardIn k u)
    (ha : a.link = s.link ∧ a.table = s.table ∧ a.trialStreak = s.trialStreak ∧ a.reaction = s.reaction ∧ a.op = s.op ∧
      a.alert = s.alert ∧ a.queue = s.queue)
    (hf : a.framer.sequence = s.framer.sequence ∧ a.framer.flags = s.framer.flags ∧ a.framer.readable = s.framer.readable) :
    s.Found k u := by
  obtain ⟨hl, htab, hstr, hr, hop, hal, hq⟩ := ha
  obtain ⟨hseq, hflags, hread⟩ := hf
  exact
    { link := h.link.trans hl, table := h.table.trans htab, streak := h.streak.trans hstr, reaction := h.reaction.trans hr
      op := h.op.trans hop, levels := h.levels.trans (by rw [hal]), sequence := h.sequence.trans hseq
      freeze := by rw [Framer.freezeFlag, h.readable, h.flags, hread, hflags, State.trainFlag_eq]
      clr := by rw [Framer.clrFlag, h.readable, h.flags, hread, hflags, State.trainFlag_eq]
      factors := by rw [← hal]; exact h.factors
      qfullStays := fun hs => h.qfullStays (by rw [hal]; exact hs)
      queue := by rw [← hq]; exact h.queue }

theorem State.Found.inPath (h : s.Found k u) (hi : s.inPath = true) : u.inPath = true := by rw [State.inPath, h.link]; exact hi

/-- The reports that an occasion may bring before the train's end (R19, R21, R22, R23). -/
def State.reportsAt (o : Occasion) (s : State) : Nat :=
  match o with
  | .silence => 1
  | .arrival x => if x.taken ∈ [.te, .ta, .ts] then (s.endCauses x.taken).length else 3

/-- What an occasion leaves, from the part that the train's end finds. -/
def State.leftBy (o : Occasion) (u : State) : State :=
  match o with
  | .arrival x => if x.taken = .ts then (u.trainEnd false).openTrain else (u.trainEnd (x.taken == .te)).leaveIfDue
  | .silence => { u.trainEnd false with link := (u.trainEnd false).link.loseSignal true }

/-- In the path an arrival completes no record where the statements say so. -/
theorem State.completesRecord_false (h : s.completesRecord x = false) : ¬ (s.afterArrival x).completesWith x.taken := by
  rintro ⟨-, r, b, hp, hb, hl⟩
  have hp' : s.framer.position = .record r := hp
  rw [State.completesRecord, hp', hb, decide_eq_false_iff_not] at h
  exact h hl

/-- The part as a symbol that ends its train finds it, after the reports of the cut and of the end (R21, R22). -/
def State.endedBy (x : LineSymbol) (s : State) : State := (s.afterArrival x).cutShort.endReported (x.taken == .te)

theorem State.found_endedBy (hp : s.framer.position ≠ .outside) (x : LineSymbol) :
    s.Found (s.endCauses x.taken).length (s.endedBy x) :=
  (State.HeardIn.ended (s := s.afterArrival x) hp x.taken).found ⟨rfl, rfl, rfl, rfl, rfl, rfl, rfl⟩ ⟨rfl, rfl, rfl⟩

theorem State.endedBy_delay (x : LineSymbol) (s : State) : (s.endedBy x).delay = (s.afterArrival x).delay := by
  rw [State.endedBy, State.endReported_delay, State.cutShort_delay]

/-- A symbol that ends the open train ends it there. -/
theorem State.occur_endedBy (hr : s.running = true) (hp : s.framer.position ≠ .outside) (hx : x.taken ∈ [Symbol.te, .ta, .ts]) :
    s.quiet.occur (.arrival x) = (s.endedBy x).leftBy (.arrival x) := by
  refine (State.arrive_end hr hp hx).trans ?_
  rw [State.leftBy]
  by_cases hts : x.taken = .ts
  · rw [if_pos hts, if_pos hts, State.endedBy, hts]
    rfl
  · rw [if_neg hts, if_neg hts, State.endedBy]

/-- The occasion that ends a train in the path comes to the train's end. -/
theorem State.occasion_end {o : Occasion} (hr : s.running = true) (hplaced : s.PlacedParts 0 2048) (hi : s.inPath = true)
    (he : s.endsTrainAt o) :
    ∃ u, s.Found (s.reportsAt o) u ∧ s.quiet.occur o = u.leftBy o ∧
      ∀ x, o = .arrival x → x.taken ≠ .fill → u.delay = (s.afterArrival x).delay := by
  obtain ⟨hp, hby⟩ := he
  cases o
  case arrival x =>
    by_cases hx : x.taken ∈ [Symbol.te, .ta, .ts]
    · refine ⟨s.endedBy x, ?_, State.occur_endedBy hr hp hx, fun y hy _ => ?_⟩
      · rw [State.reportsAt, if_pos hx]
        exact State.found_endedBy hp x
      · cases hy
        exact State.endedBy_delay x s
    · obtain ⟨hc, hno⟩ := hby.resolve_left hx
      have hno' := State.completesRecord_false hno
      obtain ⟨u, hu, harr, hdelay⟩ := State.arrive_limit_quiet hr hplaced.counts hp hc hx hno'
      have hne : x.taken ≠ .ts ∧ (x.taken == .te) = false :=
        ⟨fun h => hx (by rw [h]; simp), beq_false_of_ne fun h => hx (by rw [h]; simp)⟩
      refine ⟨u, ?_, ?_, fun y hy hfill => ?_⟩
      · rw [State.reportsAt, if_neg hx]
        exact hu.found ⟨rfl, rfl, rfl, rfl, rfl, rfl, rfl⟩ ⟨rfl, rfl, rfl⟩
      · refine harr.trans ?_
        rw [State.leftBy, if_neg hne.1, hne.2]
      · cases hy
        rw [hdelay]
        refine ((State.takeSymbol_line (hplaced.afterArrival x) hi x.taken).2 ?_).delay
        rintro (⟨hpos, -⟩ | ⟨r, b, hpos, hb, hl⟩ | ⟨hf, -⟩)
        · have hlate := Framer.counts_late hplaced.counts hp hc
          have hpos' : s.framer.position = .status _ := hpos
          simp [Framer.readable, hpos'] at hlate
        · exact hno' ⟨hi, r, b, hpos, hb, hl⟩
        · exact hfill hf
  case silence =>
    have hd := hplaced.seated.link.exclusive hi
    have hsig : s.framer.signal = .present := hplaced.present hp
    have hu : State.HeardIn 1 { s.quiet with framer := { s.framer with signal := .lost, silence := 128 } } _ :=
      .report (by exact hp) 5
    refine ⟨_, hu.found ⟨rfl, rfl, rfl, rfl, rfl, rfl, rfl⟩ ⟨rfl, rfl, rfl⟩, ?_, nofun⟩
    refine (State.fallSilent_noDrain hr hd).trans ?_
    have hopen : s.quiet.framer.position ≠ .outside := hp
    rw [if_pos hsig, State.declareLoss_eq, (Framer.trainOpen_iff _).2 hopen, State.lossEnded, if_neg hopen]
    rfl

/-! ### The timing update (R93 to R96) -/

/-- What counted train ends leave of the factors and the queue: STALE, QFULL and OPDONE may rise, and at most n STALE incidents join. -/
structure State.Counted (n : Nat) (u v : State) : Prop where
  factors : v.alert.flags =
    { u.alert.flags with stale := v.alert.flags.stale, qfull := v.alert.flags.qfull, opdone := v.alert.flags.opdone }
  staleStays : u.alert.flags.stale = true → v.alert.flags.stale = true
  qfullStays : u.alert.flags.qfull = true → v.alert.flags.qfull = true
  queue : ∃ ys, v.queue.items = u.queue.items ++ ys ∧ ys.length ≤ n ∧ ∀ y ∈ ys, y.kind = .stale

theorem State.Counted.trans (h : u.Counted n v) (h' : v.Counted m w) : u.Counted (n + m) w where
  factors := by rw [h'.factors, h.factors]
  staleStays := fun hs => h'.staleStays (h.staleStays hs)
  qfullStays := fun hs => h'.qfullStays (h.qfullStays hs)
  queue := by
    obtain ⟨ys, hy, hlen, hkind⟩ := h.queue
    obtain ⟨zs, hz, hlen', hkind'⟩ := h'.queue
    refine ⟨ys ++ zs, by rw [hz, hy, List.append_assoc], by rw [List.length_append]; omega, fun y hmem => ?_⟩
    exact (List.mem_append.1 hmem).elim (hkind y) (hkind' y)

theorem State.Counted.le (h : u.Counted n v) (hn : n ≤ m) : u.Counted m v where
  factors := h.factors
  staleStays := h.staleStays
  qfullStays := h.qfullStays
  queue := by
    obtain ⟨ys, hy, hlen, hkind⟩ := h.queue
    exact ⟨ys, hy, Nat.le_trans hlen hn, hkind⟩

/-- Only OPDONE may have risen. -/
theorem State.Counted.of_opdone (hf : v.alert.flags = u.alert.flags ∨ v.alert.flags = u.alert.flags.set .opdone true)
    (hq : v.queue = u.queue) : u.Counted 0 v where
  factors := by rcases hf with hf | hf <;> rw [hf]; rfl
  staleStays := fun hs => by rcases hf with hf | hf <;> rw [hf] <;> exact hs
  qfullStays := fun hs => by rcases hf with hf | hf <;> rw [hf] <;> exact hs
  queue := ⟨[], by rw [hq, List.append_nil], Nat.le_refl _, nofun⟩

theorem State.Counted.refl (u : State) : u.Counted 0 u := .of_opdone (.inl rfl) rfl

/-- The incident of a STALE entry, and the factor after it (R96). -/
theorem State.Counted.stale (u : State) (i : Nat) : u.Counted 1 ((u.pushIncident .stale (some i) none).raise .stale) where
  factors := by
    unfold State.pushIncident
    split
    · rw [State.raise_flags]; rfl
    · rw [State.raise_flags, State.raise_flags]; rfl
  staleStays := fun _ => by rw [State.raise_flags]; rfl
  qfullStays := fun hq => by
    unfold State.pushIncident
    split
    · rw [State.raise_flags]; exact hq
    · rw [State.raise_flags, State.raise_flags]; rfl
  queue := by
    unfold State.pushIncident
    split
    · exact ⟨[_], rfl, Nat.le_refl _, fun y hy => by rw [List.mem_singleton.1 hy]⟩
    · exact ⟨[], by simp, by simp, nofun⟩

theorem State.entry_updateEntry_all {f : Entry → Entry} (hf : f Entry.empty = Entry.empty) (s : State) (i j : Nat) :
    (s.updateEntry i f).entry j = if j = i then f (s.entry j) else s.entry j := by
  by_cases hj : j = i
  · subst hj
    rw [if_pos rfl]
    by_cases hlt : j < s.table.entries.length
    · exact State.entry_updateEntry s j f hlt
    · rw [State.entry_beyond (by simpa using hlt), State.entry_beyond (by omega), hf]
  · rw [if_neg hj, State.entry_updateEntry_ne s f hj]

theorem State.timeEntry_entry (s : State) (i j : Nat) :
    (s.timeEntry i).entry j = if j = i then (s.entry j).timingUpdate else s.entry j := by
  rw [← State.entry_updateEntry_all (f := Entry.timingUpdate) rfl s i j]
  refine State.entry_congr ?_ j
  unfold State.timeEntry
  dsimp only
  split <;> simp

theorem State.timeEntriesFrom_entry (n i j : Nat) (s : State) :
    (s.timeEntriesFrom n i).entry j = if i ≤ j ∧ j < i + n then (s.entry j).timingUpdate else s.entry j := by
  induction n generalizing i s with
  | zero => rw [if_neg (by omega)]; rfl
  | succ n ih =>
    rw [State.timeEntriesFrom, ih, State.timeEntry_entry]
    by_cases hij : j = i
    · rw [if_pos hij, if_neg (by omega), if_pos (by omega)]
    · rw [if_neg hij]
      exact if_congr (by omega) rfl rfl

/-- The update reaches every entry of the table (R94). -/
theorem State.timingUpdate_entry (h : s.table.entries.length = 64) (j : Nat) :
    s.timingUpdate.entry j = (s.entry j).timingUpdate := by
  rw [State.timingUpdate, State.timeEntriesFrom_entry]
  by_cases hj : j < 64
  · exact if_pos ⟨Nat.zero_le _, by unfold Config.entries; omega⟩
  · rw [if_neg (by unfold Config.entries; omega), State.entry_beyond (by omega)]
    rfl

theorem State.timeEntriesFrom_add (m n i : Nat) (s : State) :
    s.timeEntriesFrom (m + n) i = (s.timeEntriesFrom m i).timeEntriesFrom n (i + m) := by
  induction m generalizing i s with
  | zero => rw [Nat.zero_add]; rfl
  | succ m ih =>
    rw [Nat.succ_add, State.timeEntriesFrom, ih, State.timeEntriesFrom, Nat.add_assoc, Nat.add_comm 1 m]

/-- The update of one entry: no incident but of its own going STALE. -/
theorem State.Counted.timeEntry (i : Nat) (s : State) : s.Counted (if (s.entry i).staleDue then 1 else 0) (s.timeEntry i) := by
  have hu : s.Counted 0 (s.updateEntry i Entry.timingUpdate) := .of_opdone (.inl rfl) rfl
  unfold State.timeEntry
  dsimp only
  split
  · exact hu.trans (m := 1) (.stale _ i)
  · exact hu

theorem State.Counted.timeEntriesFrom (n i : Nat) (s : State) :
    s.Counted ((List.range' i n).countP fun j => (s.entry j).staleDue) (s.timeEntriesFrom n i) := by
  induction n generalizing i s with
  | zero => exact .refl s
  | succ n ih =>
    have hrest : ((List.range' (i + 1) n).countP fun j => ((s.timeEntry i).entry j).staleDue) =
        (List.range' (i + 1) n).countP fun j => (s.entry j).staleDue := by
      refine List.countP_congr fun j hj => ?_
      have hne : j ≠ i := by
        have := (List.mem_range'_1.1 hj).1
        omega
      rw [State.timeEntry_entry, if_neg hne]
    have h := (State.Counted.timeEntry i s).trans (ih (i + 1) (s.timeEntry i))
    rw [hrest] at h
    rw [List.range'_succ, List.countP_cons, Nat.add_comm]
    exact h

/-! ### The counts of the long operations (R175, R178) -/

/-- The timing update of a counted train end; none in a FREEZE train (R93). -/
def State.timed (s : State) : State := if s.framer.freezeFlag then s else s.timingUpdate

/-- The running operation's count of a train end (R175, R178, R182). -/
def State.countOperation (freeze : Bool) (s : State) : State :=
  if freeze then s.captureTrainEnd else s.captureTrainEnd.trialTrainEnd

/-- The blocks' counts at a train end, before the header's CLR. -/
def State.countTrain (s : State) : State := s.timed.countOperation s.framer.freezeFlag

theorem State.trainEndInPath_eq (s : State) :
    s.trainEndInPath = if s.framer.clrFlag then s.countTrain.clear fullMask .allEntries else s.countTrain := rfl

theorem State.Counted.endOperation (c : EndCause) (how : TrialLeave) (s : State) : s.Counted 0 (s.endOperation c how) := by
  unfold State.endOperation
  split
  · exact .refl s
  · exact .of_opdone (.inr (by rw [State.raise_flags]; simp)) (by simp)

theorem State.Counted.captureTrainEnd (s : State) : s.Counted 0 s.captureTrainEnd := by
  unfold State.captureTrainEnd
  split
  next c _ =>
    have hm : s.Counted 0 { s with op := { s.op with slot := .capture { c with without := c.without + 1 } } } := .of_opdone (.inl rfl) rfl
    dsimp only
    split
    · exact hm.trans (m := 0) (.endOperation _ _ _)
    · exact hm
  · exact .refl s

theorem State.Counted.trialTrainEnd (s : State) : s.Counted 0 s.trialTrainEnd := by
  unfold State.trialTrainEnd
  split
  next r _ =>
    have hm : s.Counted 0 { s with op := { s.op with slot := .trial { r with counted := r.counted + 1 } } } := .of_opdone (.inl rfl) rfl
    dsimp only
    split
    · exact hm.trans (m := 0) (.endOperation _ _ _)
    · exact hm
  · exact .refl s

theorem State.Counted.countOperation (freeze : Bool) (s : State) : s.Counted 0 (s.countOperation freeze) := by
  unfold State.countOperation
  split
  · exact .captureTrainEnd s
  · exact (State.Counted.captureTrainEnd s).trans (m := 0) (.trialTrainEnd _)

theorem State.Counted.countTrain (s : State) : s.Counted 64 s.countTrain := by
  have hle : ((List.range' 0 Config.entries).countP fun j => (s.entry j).staleDue) ≤ 64 := by
    have := List.countP_le_length (p := fun j => (s.entry j).staleDue) (l := List.range' 0 Config.entries)
    rwa [List.length_range'] at this
  have htime : s.Counted 64 s.timed := by
    unfold State.timed
    split
    · exact (State.Counted.refl s).le (Nat.zero_le _)
    · exact (State.Counted.timeEntriesFrom Config.entries 0 s).le hle
  exact htime.trans (m := 0) (.countOperation _ _)

/-- The count by the operation that runs (R175, R178, R182). -/
theorem State.countOperation_eq (freeze : Bool) (s : State) :
    (s.op.slot = .idle → s.countOperation freeze = s) ∧
    (∀ c, s.op.slot = .capture c → s.countOperation freeze =
      let s' : State := { s with op := { s.op with slot := .capture { c with without := c.without + 1 } } }
      if c.without + 1 = c.limit then s'.endOperation .timeout .complete else s') ∧
    (∀ r, s.op.slot = .trial r → s.countOperation freeze =
      let s' : State := { s with op := { s.op with slot := .trial { r with counted := r.counted + 1 } } }
      if freeze = true then s else if r.counted + 1 = r.limit then s'.endOperation .done .complete else s') := by
  have hcapture (u : State) (hu : ∀ r, u.op.slot ≠ .trial r) : u.trialTrainEnd = u := by
    unfold State.trialTrainEnd
    split
    next r hr => exact absurd hr (hu r)
    · rfl
  refine ⟨fun hs => ?_, fun c hs => ?_, fun r hs => ?_⟩
  · have hc : s.captureTrainEnd = s := by rw [State.captureTrainEnd, hs]
    rw [State.countOperation, hc, hcapture s (by rw [hs]; nofun), ite_self]
  · have hc : s.captureTrainEnd =
        (let s' : State := { s with op := { s.op with slot := .capture { c with without := c.without + 1 } } }
        if c.without + 1 = c.limit then s'.endOperation .timeout .complete else s') := by rw [State.captureTrainEnd, hs]
    have hno (r : TrialFields) : s.captureTrainEnd.op.slot ≠ .trial r := by
      rw [hc]
      dsimp only
      split
      · rw [State.endOperation, if_neg (by simp [OperationSlot.isIdle]), State.closeOperation_eq]
        simp
      · nofun
    rw [State.countOperation, hcapture _ hno, ite_self, hc]
  · have hc : s.captureTrainEnd = s := by rw [State.captureTrainEnd, hs]
    rw [State.countOperation, hc, State.trialTrainEnd, hs]

/-- An entry after the operations' counts: as it was, or off its trial. -/
theorem State.endOperation_entry (c : EndCause) (how : TrialLeave) (s : State) (i : Nat) :
    (s.endOperation c how).entry i = s.entry i ∨
      ((s.endOperation c how).entry i = (s.entry i).leaveTrial how ∧ ∃ r, s.op.slot = .trial r ∧ r.entry = i) := by
  have hraise : (s.endOperation c how).entry i = (s.closeOperation c how).entry i := by
    unfold State.endOperation
    split
    next hidle => rw [State.closeOperation_idle (OperationSlot.isIdle_iff.1 hidle)]
    · exact State.entry_congr (by simp) i
  rw [hraise]
  by_cases hi : ∃ r, s.op.slot = .trial r ∧ r.entry = i
  · obtain ⟨r, hr, rfl⟩ := hi
    unfold State.closeOperation
    rw [hr]
    dsimp only
    by_cases hlt : r.entry < s.table.entries.length
    · exact .inr ⟨State.entry_updateEntry s r.entry _ hlt, r, rfl, rfl⟩
    · left
      show (s.updateEntry r.entry (Entry.leaveTrial how)).entry r.entry = _
      rw [State.entry_beyond (by simpa using hlt), State.entry_beyond (by omega)]
  · exact .inl (State.closeOperation_entry (fun r hr hri => hi ⟨r, hr, hri⟩) c how)

theorem State.timed_entry (h : s.table.entries.length = 64) (i : Nat) :
    s.timed.entry i = if s.framer.freezeFlag then s.entry i else (s.entry i).timingUpdate := by
  unfold State.timed
  split
  · rfl
  · exact State.timingUpdate_entry h i

@[simp] theorem State.timed_frame (s : State) :
    s.timed.op = s.op ∧ s.timed.link = s.link ∧ s.timed.reaction = s.reaction ∧ s.timed.trialStreak = s.trialStreak ∧
      s.timed.framer = s.framer ∧ s.timed.delay = s.delay ∧ s.timed.alert.levels = s.alert.levels := by
  unfold State.timed
  split <;> simp

@[simp] theorem State.countTrain_frame (s : State) :
    s.countTrain.link = s.link ∧ s.countTrain.reaction = s.reaction ∧ s.countTrain.op.fifo = s.op.fifo ∧
      s.countTrain.alert.levels = s.alert.levels := by
  unfold State.countTrain State.countOperation
  split <;> simp

/-- An entry after the operation's count. -/
theorem State.countOperation_entry (freeze : Bool) (s : State) (i : Nat) :
    (s.countOperation freeze).entry i = s.entry i ∨
      ((∃ how, (s.countOperation freeze).entry i = (s.entry i).leaveTrial how) ∧ ∃ r, s.op.slot = .trial r ∧ r.entry = i) := by
  obtain ⟨hidle, hcapture, htrial⟩ := State.countOperation_eq freeze s
  cases hs : s.op.slot
  case idle => exact .inl (by rw [hidle hs])
  case capture c =>
    left
    rw [hcapture c hs]
    dsimp only
    split
    · refine (State.endOperation_entry _ _ _ i).resolve_right ?_
      rintro ⟨-, r, hr, -⟩
      cases hr
    · rfl
  case trial r =>
    rw [htrial r hs]
    dsimp only
    split
    · exact .inl rfl
    split
    · rcases State.endOperation_entry .done .complete
        { s with op := { s.op with slot := .trial { r with counted := r.counted + 1 } } } i with h | ⟨h, r', hr', hi⟩
      · exact .inl h
      · cases hr'
        exact .inr ⟨⟨_, h⟩, r, rfl, hi⟩
    · exact .inl rfl

/-- An entry after the counts of a train end. -/
theorem State.countTrain_entry (s : State) (i : Nat) :
    s.countTrain.entry i = s.timed.entry i ∨
      ((∃ how, s.countTrain.entry i = (s.timed.entry i).leaveTrial how) ∧ ∃ r, s.op.slot = .trial r ∧ r.entry = i) := by
  have hc := State.countOperation_entry s.framer.freezeFlag s.timed i
  rwa [(State.timed_frame s).1] at hc

/-! ### The header's CLR (R134, R135, R137) -/

/-- A clear of all entries and factors. -/
theorem State.clearAll (s : State) :
    (∀ i, (s.clear fullMask .allEntries).entry i = (s.entry i).released) ∧
    (s.clear fullMask .allEntries).alert.flags =
      { trip := s.alert.flags.trip && (s.clear fullMask .allEntries).anyTripped
        stale := s.alert.flags.stale && (s.clear fullMask .allEntries).anyStale
        link := false
        qfull := s.alert.flags.qfull && !decide (s.queue.items.length < 32)
        slot := false
        isol := s.alert.flags.isol && s.reaction.isolated
        opdone := false } := by
  have htable : (s.clear fullMask .allEntries).table.entries = s.table.entries.map Entry.released := rfl
  refine ⟨fun i => ?_, ?_⟩
  · rw [State.entry, htable, State.entry, List.getD_eq_getElem?_getD, List.getD_eq_getElem?_getD, List.getElem?_map]
    cases s.table.entries[i]? <;> rfl
  · have htrip : (s.clear fullMask .allEntries).anyTripped = (s.clearEntries .allEntries).anyTripped := rfl
    have hstale : (s.clear fullMask .allEntries).anyStale = (s.clearEntries .allEntries).anyStale := rfl
    rw [htrip, hstale]
    simp [State.clear, State.clearFactors, AlertUnit.settle, State.flagAfterClear, fullMask, PerFactor.get, State.clears,
      State.clearEntries, Config.incidentCapacity]
    rfl

/-- Some entry of the table, told by the entries of all indices. -/
theorem State.any_entry_iff {p : Entry → Bool} (hp : p Entry.empty = false) (s : State) :
    s.table.entries.any p = true ↔ ∃ i, p (s.entry i) = true := by
  rw [List.any_eq_true]
  constructor
  · rintro ⟨e, he, hpe⟩
    obtain ⟨i, hi, rfl⟩ := List.mem_iff_getElem.1 he
    refine ⟨i, ?_⟩
    rw [State.entry, List.getD_eq_getElem?_getD, List.getElem?_eq_getElem hi]
    exact hpe
  · rintro ⟨i, hi⟩
    refine ⟨s.entry i, (s.entry_eq i).resolve_right fun he => ?_, hi⟩
    rw [he, hp] at hi
    cases hi

theorem State.anyTripped_iff (s : State) : s.anyTripped = true ↔ ∃ i, (s.entry i).live.condition = .tripped :=
  (State.any_entry_iff rfl s).trans (exists_congr fun _ => beq_iff_eq)

theorem State.anyStale_iff (s : State) : s.anyStale = true ↔ ∃ i, (s.entry i).live.timing = .stale :=
  (State.any_entry_iff rfl s).trans (exists_congr fun _ => beq_iff_eq)

end

end Sys2Proof.Machine
end

section
/-! PROOF. What the train end that an occasion brings leaves of the part, and the operations and periods that it ends (R94 to R96, R102, R130,
R137, R170, R171, R175, R178, R181). -/

namespace Sys2Proof.Machine

section

variable {s t u v w : State} {o : Occasion} {x : LineSymbol} {k i : Nat}

/-! ### From the end of the train to what the occasion leaves -/

/-- Two parts whose blocks hold the same but for the waiting notice and the notice run. -/
structure State.SameUnits (w t : State) : Prop where
  table : t.table = w.table
  op : t.op = w.op
  streak : t.trialStreak = w.trialStreak
  reaction : t.reaction = w.reaction
  queue : t.queue = w.queue
  flags : t.alert.flags = w.alert.flags
  levels : t.alert.levels = w.alert.levels

theorem State.SameUnits.entry (h : w.SameUnits t) (i : Nat) : t.entry i = w.entry i := by rw [State.entry, h.table, State.entry]

theorem State.trainEnd_units (hi : u.inPath = true) (byTe : Bool) : u.trainEndInPath.SameUnits (u.trainEnd byTe) := by
  rw [State.trainEnd_inPath hi]
  exact ⟨rfl, rfl, rfl, rfl, rfl, rfl, rfl⟩

theorem State.leaveIfDue_units (s : State) : s.SameUnits s.leaveIfDue := by
  unfold State.leaveIfDue
  split <;> exact ⟨rfl, rfl, rfl, rfl, rfl, rfl, rfl⟩

/-- What an occasion leaves of the blocks is what the train's end leaves, but for the AT-TRAIN abort of a train start (R181). -/
theorem State.leftBy_units (hi : u.inPath = true) (o : Occasion) :
    ∃ y, u.trainEndInPath.SameUnits y ∧ (y.SameUnits (u.leftBy o) ∨ y.trainAbort.SameUnits (u.leftBy o)) := by
  cases o
  case silence => exact ⟨_, State.trainEnd_units hi false, .inl ⟨rfl, rfl, rfl, rfl, rfl, rfl, rfl⟩⟩
  case arrival x =>
    unfold State.leftBy
    dsimp only
    split
    · have h := State.trainEnd_units hi false
      exact ⟨{ (u.trainEnd false).clearTrainMarks with framer := (u.trainEnd false).framer.opened },
        ⟨h.table, h.op, h.streak, h.reaction, h.queue, h.flags, h.levels⟩, .inr ⟨rfl, rfl, rfl, rfl, rfl, rfl, rfl⟩⟩
    · exact ⟨_, State.trainEnd_units hi _, .inl (State.leaveIfDue_units _)⟩

/-- With no operation left a train start aborts nothing. -/
theorem State.leftBy_idle (hi : u.inPath = true) (hidle : u.trainEndInPath.op.slot = .idle) (o : Occasion) :
    u.trainEndInPath.SameUnits (u.leftBy o) := by
  obtain ⟨y, hy, hleft⟩ := State.leftBy_units hi o
  have habort : y.trainAbort = y := by
    have hs : y.op.slot = .idle := by rw [hy.op, hidle]
    rw [State.trainAbort, State.abortOperation_eq, if_pos hs, ite_self]
  rw [habort, or_self] at hleft
  exact
    { table := hleft.table.trans hy.table, op := hleft.op.trans hy.op, streak := hleft.streak.trans hy.streak
      reaction := hleft.reaction.trans hy.reaction, queue := hleft.queue.trans hy.queue, flags := hleft.flags.trans hy.flags
      levels := hleft.levels.trans hy.levels }

/-! ### The commands named by what a train end brings about -/

/-- Before the end the table and the operation stand as the occasion finds them: its symbol completes no record. -/
theorem State.beforeEnd_kept (hplaced : s.PlacedParts 0 2048) (hi : s.inPath = true) (he : s.endsTrainAt o) :
    (s.beforeEnd o).table = s.table ∧ (s.beforeEnd o).op = s.op := by
  obtain ⟨hp, hby⟩ := he
  cases o
  case silence => exact ⟨rfl, rfl⟩
  case arrival x =>
    unfold State.beforeEnd
    dsimp only
    split
    next hx =>
      have hne : x.taken ∉ [Symbol.te, .ta, .ts] := fun h => by
        have hends : x.taken.endsTrain = true := by
          simp only [List.mem_cons, List.not_mem_nil, or_false] at h
          rcases h with h | h | h <;> rw [h] <;> rfl
        rw [hends] at hx
        simp at hx
      obtain ⟨hc, hno⟩ := hby.resolve_left hne
      let a : State := { s.moveLine x with framer := s.framer.hear }
      have hlink : a.link = s.link := (State.moveLine_frame x s).2.2.2.2.1
      have hcount : a.framer.symbolCount = 2048 := by
        show (if s.framer.trainOpen = true then _ else _) = _
        rw [if_pos ((Framer.trainOpen_iff _).2 hp), hc]
      have hno' : ¬ a.completesWith x.taken := fun ⟨_, r, b, hpos, hb, hl⟩ =>
        State.completesRecord_false hno ⟨hi, r, b, hpos, hb, hl⟩
      have hlate : a.framer.readable = true ∨ a.framer.position = .unread := Framer.counts_late (f := s.framer) hplaced.counts hp hc
      have hheard : a.HeardIn 1 (s.takeArrival x) :=
        .takeSymbol hlate (by rw [hcount]; nofun) hne hno'
      exact ⟨hheard.table.trans (by simp [a]), hheard.op.trans (by simp [a])⟩
    · exact ⟨rfl, rfl⟩

/-- A command named by what does come about is the occasion itself. -/
theorem State.comesAboutAtEnd_eq {named : State → State → Bool} (h : named (s.beforeEnd o) (s.quiet.occur o) = true) :
    s.comesAboutAtEnd named o = .next (s.quiet.occur o) := by
  unfold State.comesAboutAtEnd State.comesAbout
  dsimp only
  rw [if_pos h]

theorem exec_commandOf (o : Occasion) (s : State) : exec (commandOf o) s = .next (s.quiet.occur o) := by cases o <;> rfl

/-! ### The end of a long operation at the end of a train -/

/-- The end of a running operation (R130, R171). -/
theorem State.endOperation_eq {s : State} (h : s.op.slot ≠ .idle) (c : EndCause) (how : TrialLeave) :
    s.endOperation c how = (s.operationEnded c how.results).raise .opdone := by
  rw [State.endOperation, if_neg (OperationSlot.isIdle_iff.not.2 h), State.closeOperation_eq, if_neg h]
  rfl

/-- The entry that leaves its trial with the operation (R63). -/
theorem State.endOperation_trialEntry {r : TrialFields} (hs : s.op.slot = .trial r) (hlt : r.entry < s.table.entries.length)
    (c : EndCause) (how : TrialLeave) : (s.endOperation c how).entry r.entry = (s.entry r.entry).leaveTrial how := by
  have hclose : (s.closeOperation c how).entry r.entry = (s.entry r.entry).leaveTrial how := by
    rw [State.closeOperation, hs]
    exact State.entry_updateEntry s r.entry _ hlt
  rw [← hclose, State.endOperation, if_neg (by rw [hs]; simp [OperationSlot.isIdle])]
  exact State.entry_congr (by simp) _

/-- OPDONE after a train end whose counts raise it: the header's CLR takes it down (R137). -/
theorem State.trainEndInPath_opdone (h : s.countTrain.alert.flags.opdone = true) :
    s.trainEndInPath.alert.flags.opdone = !s.framer.clrFlag := by
  rw [State.trainEndInPath_eq]
  split
  next hc => rw [(State.clearAll _).2, hc]; rfl
  next hc => rw [h, Bool.eq_false_iff.2 hc]; rfl

@[simp] theorem State.trainEndInPath_op (s : State) : s.trainEndInPath.op = s.countTrain.op := by
  rw [State.trainEndInPath_eq]
  split <;> simp

/-- Settles O48: the count that ends the capture, and what of it the occasion leaves. -/
theorem aCaptureTimesOut : Obligations.ACaptureTimesOut := by
  unfold Obligations.ACaptureTimesOut
  intro o s c hl hr hi he hslot hlimit
  have hplaced := (State.placed_iff s).1 hl.2.2.1
  obtain ⟨u, hu, hleft, -⟩ := State.occasion_end hr hplaced hi he
  have hui := hu.inPath hi
  let m : State := { u.timed with op := { u.timed.op with slot := .capture { c with without := c.without + 1 } } }
  have hcount : u.countTrain = m.endOperation .timeout .complete := by
    have hs : u.timed.op.slot = .capture c := by rw [(State.timed_frame u).1, hu.op, hslot]
    rw [State.countTrain, (State.countOperation_eq _ _).2.1 c hs]
    exact if_pos hlimit
  rw [State.endOperation_eq (s := m) (OperationSlot.noConfusion ·)] at hcount
  have hop : u.countTrain.op =
      { slot := .idle, pendingAbort := .none, fifo := s.op.fifo
        last :=
          { kind := .capture, cause := .timeout, byte1 := BitVec.ofNat 8 c.matched, byte2 := BitVec.ofNat 8 c.lost
            byte3 := BitVec.ofNat 8 c.stored } } := by
    rw [hcount]
    simp [m, State.operationEnded, resultOf, hu.op]
  have hdone : u.countTrain.alert.flags.opdone = true := by
    rw [hcount, State.raise_flags]
    rfl
  have hunits := State.leftBy_idle hui (by rw [State.trainEndInPath_op, hop]) o
  have htop : (s.quiet.occur o).op = u.countTrain.op := by rw [hleft, hunits.op, State.trainEndInPath_op]
  rw [hop] at htop
  refine ⟨s.quiet.occur o, State.comesAboutAtEnd_eq ?_, exec_commandOf o s, htop, ?_, ?_⟩
  · rw [captureTimedOut, (State.beforeEnd_kept hplaced hi he).2, htop, hslot]
    rfl
  · rw [hleft, hunits.flags, State.trainEndInPath_opdone hdone, hu.clr]
    simp
  · rw [hleft, hunits.reaction]
    simpa using hu.reaction

theorem Entry.timingUpdate_untimed {e : Entry} (h : e.state ≠ .armed) : e.timingUpdate = e := by
  have ht : e.timed = false := by simp [Entry.timed, h]
  have hp : e.periodDue = false := by rw [Entry.periodDue, ht]; rfl
  rw [Entry.timingUpdate, Entry.staleDue, hp, ht]
  rfl

theorem Entry.released_unarmed {e : Entry} (h : e.state ≠ .armed) : e.released = e := by
  rw [Entry.released, if_neg]
  simp [h]

/-- Settles O49: the count that ends the trial, and what of it the occasion leaves. -/
theorem aTrialEndsDone : Obligations.ATrialEndsDone := by
  unfold Obligations.ATrialEndsDone
  intro o s r hl hr hi he hfreeze hslot hlimit
  have hplaced := (State.placed_iff s).1 hl.2.2.1
  have hlaw := hl.2.2.2
  obtain ⟨u, hu, hleft, -⟩ := State.occasion_end hr hplaced hi he
  have hui := hu.inPath hi
  have hufreeze : u.framer.freezeFlag = false := hu.freeze.trans hfreeze
  have htrial : (s.entry r.entry).state = .trial := (hlaw.2.2.2.2.1 r.entry).2 ⟨r, hslot, rfl⟩
  have hlaw' : u.tableLawful := hlaw.frame ⟨by rw [hu.table], by rw [hu.op], by rw [hu.op], hu.streak⟩
  have hlen : u.table.entries.length = 64 := hlaw'.1
  have hlt : r.entry < 64 := by
    by_contra hge
    rw [State.entry_beyond (by rw [hlaw.1]; omega)] at htrial
    cases htrial
  let m : State := { u.timed with op := { u.timed.op with slot := .trial { r with counted := r.counted + 1 } } }
  have hcount : u.countTrain = m.endOperation .done .complete := by
    have hs : u.timed.op.slot = .trial r := by rw [(State.timed_frame u).1, hu.op, hslot]
    rw [State.countTrain, (State.countOperation_eq _ _).2.2 r hs, hufreeze]
    exact if_pos hlimit
  have hended := hcount
  rw [State.endOperation_eq (s := m) (OperationSlot.noConfusion ·)] at hended
  have hop : u.countTrain.op =
      { slot := .idle, pendingAbort := .none, fifo := s.op.fifo
        last :=
          { kind := .trial, cause := .done, byte1 := BitVec.ofNat 8 r.entry, byte2 := BitVec.ofNat 8 r.limit
            byte3 := BitVec.ofNat 8 r.limit } } := by
    rw [hended]
    simp [m, State.operationEnded, resultOf, hu.op, hlimit]
  have hdone : u.countTrain.alert.flags.opdone = true := by
    rw [hended, State.raise_flags]
    rfl
  have hstreak : u.countTrain.trialStreak = 0 := by
    rw [hended]
    simp [m, State.operationEnded]
  have hentry : u.countTrain.entry r.entry = (s.entry r.entry).leaveTrial .complete := by
    have htimed : u.timed.entry r.entry = s.entry r.entry := by
      rw [State.timed_entry hlen, hufreeze, if_neg Bool.false_ne_true, State.entry_congr (congrArg WatchTable.entries hu.table),
        Entry.timingUpdate_untimed (by rw [htrial]; nofun)]
    have hm : m.table.entries.length = 64 := by
      show u.timed.table.entries.length = 64
      rw [State.timed, hufreeze, if_neg Bool.false_ne_true]
      exact hlaw'.timingUpdate.1
    rw [hcount, State.endOperation_trialEntry (s := m) (r := { r with counted := r.counted + 1 }) rfl (by rw [hm]; exact hlt)]
    exact congrArg (Entry.leaveTrial .complete) htimed
  have hunits := State.leftBy_idle hui (by rw [State.trainEndInPath_op, hop]) o
  have htop : (s.quiet.occur o).op = u.countTrain.op := by rw [hleft, hunits.op, State.trainEndInPath_op]
  rw [hop] at htop
  refine ⟨s.quiet.occur o, State.comesAboutAtEnd_eq ?_, exec_commandOf o s, htop, ?_, ?_, ?_, ?_⟩
  · rw [trialEnded, (State.beforeEnd_kept hplaced hi he).2, htop, hslot]
    rfl
  · rw [hleft, hunits.entry, State.trainEndInPath_eq]
    split
    · rw [(State.clearAll _).1, hentry, Entry.released_unarmed (by simp [Entry.leaveTrial])]
      rfl
    · rw [hentry]
      rfl
  · rw [hleft, hunits.streak, State.trainEndInPath_eq]
    split <;> simp [hstreak]
  · rw [hleft, hunits.flags, State.trainEndInPath_opdone hdone, hu.clr]
    simp
  · rw [hleft, hunits.reaction]
    simpa using hu.reaction

end

end Sys2Proof.Machine
end

section
/-! PROOF. The periods of the entries at a counted train end (R93 to R96): what the end leaves of the entry, of STALE and of the queue, up
to what the whole occasion leaves. -/

namespace Sys2Proof.Machine

section

variable {s t u v w m y : State} {o : Occasion} {k n i : Nat}

/-! ### From the train's end to what the occasion leaves -/

/-- What an occasion leaves of the blocks as the end of its train left them: the same, but that an AT-TRAIN abort may have ended the
operation, raised OPDONE and taken its entry off the trial (R63, R130, R181). -/
structure State.LeftFrom (m t : State) : Prop where
  entry : ∀ i, t.entry i = m.entry i ∨ ∃ r, m.op.slot = .trial r ∧ r.entry = i
  config : ∀ i, (t.entry i).config = (m.entry i).config
  reaction : t.reaction = m.reaction
  queue : t.queue = m.queue
  fifo : t.op.fifo = m.op.fifo
  levels : t.alert.levels = m.alert.levels
  flags : t.alert.flags = m.alert.flags ∨ t.alert.flags = m.alert.flags.set .opdone true

theorem State.SameUnits.leftFrom (h : m.SameUnits t) : m.LeftFrom t where
  entry i := .inl (h.entry i)
  config i := by rw [h.entry]
  reaction := h.reaction
  queue := h.queue
  fifo := by rw [h.op]
  levels := h.levels
  flags := .inl h.flags

theorem State.trainAbort_leftFrom (s : State) : s.LeftFrom s.trainAbort := by
  by_cases h : (s.inPath && s.op.pendingAbort == .atTrain) = true
  case neg =>
    rw [State.trainAbort, if_neg h]
    exact State.SameUnits.leftFrom ⟨rfl, rfl, rfl, rfl, rfl, rfl, rfl⟩
  case pos =>
    rw [State.trainAbort, if_pos h]
    refine ⟨fun i => ?_, fun i => ?_, ?_, ?_, ?_, ?_, ?_⟩
    · exact (State.endOperation_entry .aborted .incomplete s i).imp_right (·.2)
    · rcases State.endOperation_entry .aborted .incomplete s i with he | ⟨he, -⟩ <;> rw [State.abortOperation, he]
      rfl
    · simp
    · simp
    · simp
    · simp
    · rw [State.abortOperation, State.endOperation]
      split
      · exact .inl rfl
      · exact .inr (by rw [State.raise_flags]; simp)

theorem State.LeftFrom.congr (hm : m.SameUnits v) (h : v.LeftFrom w) (ht : w.SameUnits t) : m.LeftFrom t where
  entry i := by
    rw [ht.entry, ← hm.entry, ← hm.op]
    exact h.entry i
  config i := by rw [ht.entry, h.config, hm.entry]
  reaction := ht.reaction.trans (h.reaction.trans hm.reaction)
  queue := ht.queue.trans (h.queue.trans hm.queue)
  fifo := by rw [ht.op, h.fifo, hm.op]
  levels := ht.levels.trans (h.levels.trans hm.levels)
  flags := by
    rw [ht.flags, ← hm.flags]
    exact h.flags

theorem State.leftBy_leftFrom (hi : u.inPath = true) (o : Occasion) : u.trainEndInPath.LeftFrom (u.leftBy o) := by
  obtain ⟨y, hy, hleft | hleft⟩ := State.leftBy_units hi o
  · exact .congr hy hleft.leftFrom ⟨rfl, rfl, rfl, rfl, rfl, rfl, rfl⟩
  · exact .congr hy y.trainAbort_leftFrom hleft

/-- An ARMED entry is not the trial's, and the abort leaves it. -/
theorem State.LeftFrom.armed (h : m.LeftFrom t) (hlaw : m.tableLawful) (ha : (m.entry i).state = .armed) :
    t.entry i = m.entry i := by
  refine (h.entry i).resolve_right fun ⟨r, hr, hri⟩ => ?_
  have ht : (m.entry i).state = .trial := (hlaw.entries.onTrial i).2 (by rw [hr, ← hri]; rfl)
  rw [ha] at ht
  cases ht

theorem State.trainEndInPath_config (h : u.table.entries.length = 64) (i : Nat) :
    (u.trainEndInPath.entry i).config = (u.entry i).config := by
  have htimed : (u.timed.entry i).config = (u.entry i).config := by
    rw [State.timed_entry h]
    split
    · rfl
    · exact (Entry.timingUpdate_role _).2
  have hcount : (u.countTrain.entry i).config = (u.entry i).config := by
    rw [← htimed]
    rcases State.countTrain_entry u i with he | ⟨⟨how, he⟩, -⟩ <;> rw [he]
    rfl
  rw [State.trainEndInPath_eq, ← hcount]
  split
  · rw [(State.clearAll _).1, (Entry.released_role _).2]
  · rfl

/-! ### An ARMED entry at a counted train end -/

/-- The counts and the header's CLR of a train end take an ARMED entry through its timing update and the release of its trip. -/
theorem State.trainEndInPath_armed (hlaw : u.tableLawful) (hfreeze : u.framer.freezeFlag = false) (ha : (u.entry i).state = .armed) :
    u.trainEndInPath.entry i =
      if u.framer.clrFlag then (u.entry i).timingUpdate.released else (u.entry i).timingUpdate := by
  have hcount : u.countTrain.entry i = (u.entry i).timingUpdate := by
    have htimed := State.timed_entry hlaw.1 i
    rw [if_neg (by rw [hfreeze]; exact Bool.false_ne_true)] at htimed
    rw [← htimed]
    refine (State.countTrain_entry u i).resolve_right fun ⟨_, r, hr, hri⟩ => ?_
    have ht : (u.entry i).state = .trial := (hlaw.entries.onTrial i).2 (by rw [hr, ← hri]; rfl)
    rw [ha] at ht
    cases ht
  rw [State.trainEndInPath_eq]
  split
  · rw [(State.clearAll _).1, hcount]
  · rw [hcount]

/-- The release of a trip from an ARMED entry whose timing alone has changed (R102, R137). -/
theorem Entry.released_withLive {e : Entry} {l : Live} (ha : e.state = .armed) (hc : l.condition = e.live.condition)
    (hr : l.recovered = e.live.recovered) (b : Bool) :
    (if b = true then ({ e with live := l } : Entry).released else { e with live := l }) =
      { e with
        live :=
          if b = true ∧ e.live.condition = .tripped ∧ e.live.recovered = true then
            { l with condition := .conforming, run := 0, recovered := false }
          else l } := by
  cases b
  case false => simp
  case true =>
    rw [if_pos rfl, Entry.released]
    by_cases h : e.live.condition = .tripped ∧ e.live.recovered = true
    · rw [if_pos (by simp [ha, hc, hr, h]), if_pos ⟨rfl, h⟩]
    · rw [if_neg (by simpa [ha, hc, hr] using h), if_neg fun h' => h h'.2]

/-- An ARMED entry's period runs out at the next counted train end. -/
theorem Entry.periodDue_iff {e : Entry} (ha : e.state = .armed) :
    e.periodDue = true ↔ 0 < e.config.period ∧ e.live.timing ≠ .stale ∧ e.live.since + 1 = e.config.period := by
  simp [Entry.periodDue, Entry.timed, ha, and_assoc]

/-- An entry goes STALE as the statements say it. -/
theorem Entry.goesStale_eq (e : Entry) : e.goesStale = e.staleDue := by
  rw [Bool.eq_iff_iff, Entry.goesStale, Entry.staleDue, Entry.periodDue, Entry.timed]
  simp [and_assoc]

/-! ### STALE and its incident -/

/-- The incident of entry i going STALE at the end of train `seq` waits in the queue. -/
def State.staleQueued (i : Nat) (seq : Byte) (s : State) : Prop :=
  ∃ x ∈ s.queue.items, x.kind = .stale ∧ x.entry = some i ∧ x.train = seq ∧ x.value = none

/-- STALE is pending, and the incident waits, or found the queue full. -/
def State.toldStale (i : Nat) (seq : Byte) (s : State) : Prop :=
  s.alert.flags.stale = true ∧ (s.staleQueued i seq ∨ 32 ≤ s.queue.items.length ∧ s.alert.flags.qfull = true)

theorem State.Counted.staleQueued {seq : Byte} (h : u.Counted n v) (hq : u.staleQueued i seq) : v.staleQueued i seq := by
  obtain ⟨ys, hv, -⟩ := h.queue
  obtain ⟨x, hx, hsays⟩ := hq
  exact ⟨x, by rw [hv]; exact List.mem_append_left _ hx, hsays⟩

theorem State.Counted.toldStale {seq : Byte} (h : u.Counted n v) (ht : u.toldStale i seq) : v.toldStale i seq := by
  refine ⟨h.staleStays ht.1, ht.2.imp h.staleQueued fun ⟨hlen, hfull⟩ => ⟨?_, h.qfullStays hfull⟩⟩
  obtain ⟨ys, hv, -⟩ := h.queue
  rw [hv, List.length_append]
  omega

/-- The update of an entry that goes STALE queues its incident where the queue has room. -/
theorem State.timeEntry_told (hdue : (s.entry i).staleDue = true) :
    (s.timeEntry i).toldStale i s.framer.sequence ∧
      (s.queue.items.length < 32 → (s.timeEntry i).staleQueued i s.framer.sequence) := by
  have hv : s.timeEntry i = ((s.updateEntry i Entry.timingUpdate).pushIncident .stale (some i) none).raise .stale := by
    rw [State.timeEntry, if_pos hdue]
  rw [hv]
  have hstale (v : State) : (v.raise .stale).alert.flags.stale = true := by rw [State.raise_flags]; rfl
  by_cases hroom : s.queue.items.length < 32
  · have hq : (((s.updateEntry i Entry.timingUpdate).pushIncident .stale (some i) none).raise .stale).staleQueued i
        s.framer.sequence := by
      rw [State.pushIncident_room (s := s.updateEntry i Entry.timingUpdate) hroom]
      exact ⟨_, List.mem_append_right _ (List.mem_singleton_self _), rfl, rfl, rfl, rfl⟩
    exact ⟨⟨hstale _, .inl hq⟩, fun _ => hq⟩
  · refine ⟨⟨hstale _, .inr ⟨?_, ?_⟩⟩, fun h => absurd h hroom⟩
    · rw [State.pushIncident_full (s := s.updateEntry i Entry.timingUpdate) hroom]
      exact Nat.le_of_not_lt hroom
    · rw [State.pushIncident_full (s := s.updateEntry i Entry.timingUpdate) hroom, State.raise_flags, State.raise_flags]
      rfl

/-- The timing update comes to entry i after the entries of lower index (R94, R96). -/
theorem State.timingUpdate_told (hlt : i < 64) (hdue : (s.entry i).staleDue = true) :
    s.timingUpdate.toldStale i s.framer.sequence ∧
      (s.queue.items.length + ((List.range i).countP fun j => (s.entry j).staleDue) < 32 →
        s.timingUpdate.staleQueued i s.framer.sequence) := by
  let v := s.timeEntriesFrom i 0
  have hbefore : s.Counted ((List.range i).countP fun j => (s.entry j).staleDue) v := by
    rw [List.range_eq_range']
    exact .timeEntriesFrom i 0 s
  have hrest := State.Counted.timeEntriesFrom (63 - i) (i + 1) (v.timeEntry i)
  have hsplit : s.timingUpdate = (v.timeEntry i).timeEntriesFrom (63 - i) (i + 1) := by
    have h := State.timeEntriesFrom_add i (63 - i + 1) 0 s
    rw [show i + (63 - i + 1) = Config.entries by unfold Config.entries; omega, Nat.zero_add] at h
    exact h
  have hv : (v.entry i).staleDue = true := by
    rw [State.timeEntriesFrom_entry, if_neg (by omega)]
    exact hdue
  have hseq : v.framer = s.framer := by simp [v]
  obtain ⟨htold, hqueued⟩ := State.timeEntry_told hv
  rw [hseq] at htold hqueued
  rw [hsplit]
  refine ⟨hrest.toldStale htold, fun hroom => hrest.staleQueued (hqueued ?_)⟩
  obtain ⟨ys, hq, hlen, -⟩ := hbefore.queue
  rw [hq, List.length_append]
  omega

/-- The header's CLR keeps STALE while an entry is STALE, and QFULL while the queue is full (R126, R128, R137). -/
theorem State.clearAll_told {seq : Byte} (h : s.toldStale i seq) (he : (s.entry i).live.timing = .stale) :
    (s.clear fullMask .allEntries).toldStale i seq := by
  obtain ⟨hentries, hflags⟩ := State.clearAll s
  have hq : (s.clear fullMask .allEntries).queue = s.queue := by simp
  refine ⟨?_, h.2.imp (fun ⟨x, hx, hsays⟩ => ⟨x, hq ▸ hx, hsays⟩) fun ⟨hlen, hfull⟩ => ⟨hq ▸ hlen, ?_⟩⟩
  · have hany : (s.clear fullMask .allEntries).anyStale = true := by
      refine (State.anyStale_iff _).2 ⟨i, ?_⟩
      rw [hentries, Entry.released]
      split <;> exact he
    rw [hflags]
    simp [h.1, hany]
  · rw [hflags]
    simp [hfull, hlen]

theorem State.LeftFrom.toldStale {seq : Byte} (h : m.LeftFrom t) (ht : m.toldStale i seq) : t.toldStale i seq := by
  obtain ⟨hstale, htold⟩ := ht
  refine ⟨?_, ?_⟩
  · rcases h.flags with hf | hf <;> rw [hf] <;> exact hstale
  · rw [State.staleQueued, h.queue]
    refine htold.imp_right fun ⟨hlen, hfull⟩ => ⟨hlen, ?_⟩
    rcases h.flags with hf | hf <;> rw [hf] <;> exact hfull

/-- What the end of a train in the path tells of an ARMED entry that goes STALE at it. -/
theorem State.trainEndInPath_told (hlaw : u.tableLawful) (hfreeze : u.framer.freezeFlag = false) (hlt : i < 64)
    (ha : (u.entry i).state = .armed) (hdue : (u.entry i).staleDue = true) :
    u.trainEndInPath.toldStale i u.framer.sequence ∧
      (u.queue.items.length + ((List.range i).countP fun j => (u.entry j).staleDue) < 32 →
        u.trainEndInPath.staleQueued i u.framer.sequence) := by
  have hcount : u.timingUpdate.Counted 0 u.countTrain := by
    have htimed : u.timed = u.timingUpdate := by rw [State.timed, if_neg (by rw [hfreeze]; exact Bool.false_ne_true)]
    rw [State.countTrain, htimed]
    exact .countOperation _ _
  obtain ⟨htold, hqueued⟩ := State.timingUpdate_told hlt hdue
  have htold := hcount.toldStale htold
  have hend := State.trainEndInPath_armed hlaw hfreeze ha
  rw [State.trainEndInPath_eq] at hend ⊢
  split
  next hclr =>
    rw [if_pos hclr, if_pos hclr, (State.clearAll _).1] at hend
    have hcounted : (u.countTrain.entry i).live.timing = .stale := by
      have htiming (e : Entry) : e.released.live.timing = e.live.timing := by
        unfold Entry.released
        split <;> rfl
      rw [← htiming, hend, htiming, Entry.timingUpdate, if_pos hdue]
    refine ⟨State.clearAll_told htold hcounted, fun hroom => ?_⟩
    obtain ⟨x, hx, hsays⟩ := hcount.staleQueued (hqueued hroom)
    exact ⟨x, by simpa using hx, hsays⟩
  next => exact ⟨htold, fun hroom => hcount.staleQueued (hqueued hroom)⟩

/-! ### The statement -/

/-- What the occasion leaves of the part whose ARMED entry i has a period run out, up to the entry's live fields l. -/
structure State.RunsOut (i : Nat) (l : Live) (s t : State) : Prop where
  entry : t.entry i =
    { s.entry i with
      live :=
        if s.trainFlag 0 = true ∧ (s.entry i).live.condition = .tripped ∧ (s.entry i).live.recovered = true then
          { l with condition := .conforming, run := 0, recovered := false }
        else l }
  reaction : t.reaction = s.reaction
  fifo : t.op.fifo = s.op.fifo
  levels : t.alert.levels = s.alert.levels
  config : ∀ j, (t.entry j).config = (s.entry j).config

/-- The end of the train leaves the entry as its timing update makes it, with the header's release of the trip. -/
theorem State.Found.runsOut {l : Live} (hu : s.Found k u) (hi : s.inPath = true) (hlaw : s.tableLawful) (hfreeze : s.trainFlag 1 = false)
    (ha : (s.entry i).state = .armed) (htime : (s.entry i).timingUpdate = { s.entry i with live := l })
    (hl : l.condition = (s.entry i).live.condition ∧ l.recovered = (s.entry i).live.recovered) (o : Occasion) :
    s.RunsOut i l (u.leftBy o) := by
  have hlaw' : u.tableLawful := hlaw.frame ⟨by rw [hu.table], by rw [hu.op], by rw [hu.op], hu.streak⟩
  have hentry (j : Nat) : u.entry j = s.entry j := State.entry_congr (congrArg WatchTable.entries hu.table) j
  have hend := State.trainEndInPath_armed (i := i) hlaw' (hu.freeze.trans hfreeze) (by rw [hentry, ha])
  rw [hentry, htime, hu.clr, Entry.released_withLive ha hl.1 hl.2] at hend
  have hleft := State.leftBy_leftFrom (hu.inPath hi) o
  exact
    { entry := (hleft.armed hlaw'.trainEndInPath (by rw [hend]; exact ha)).trans hend
      reaction := hleft.reaction.trans (by simpa using hu.reaction)
      fifo := hleft.fifo.trans (by rw [State.trainEndInPath_op, (State.countTrain_frame u).2.2.1, hu.op])
      levels := hleft.levels.trans (by simpa using hu.levels)
      config := fun j => by rw [hleft.config, State.trainEndInPath_config hlaw'.1, hentry] }

/-- Settles O47: the entry through the train's end, and the incident of one that goes STALE. -/
theorem aPeriodRunsOutLateOrStale : Obligations.APeriodRunsOutLateOrStale := by
  unfold Obligations.APeriodRunsOutLateOrStale
  intro i o s hl hr hi he hfreeze
  dsimp only
  intro ha hperiod htiming hsince
  have hplaced := (State.placed_iff s).1 hl.2.2.1
  obtain ⟨u, hu, hleft, -⟩ := State.occasion_end hr hplaced hi he
  have hdue : (s.entry i).periodDue = true := (Entry.periodDue_iff ha).2 ⟨hperiod, htiming, hsince⟩
  have hbefore : (s.beforeEnd o).entry i = s.entry i :=
    State.entry_congr (congrArg WatchTable.entries (State.beforeEnd_kept hplaced hi he).1) i
  refine ⟨fun hmiss => ?_, fun hmiss => ?_⟩
  · have hnot : (s.entry i).staleDue = false := by
      rw [Entry.staleDue, hdue, Bool.true_and, decide_eq_false_iff_not]
      omega
    have hout := hu.runsOut (i := i) (l := { (s.entry i).live with since := 0, miss := (s.entry i).live.miss + 1, timing := .late })
      hi hl.2.2.2 hfreeze ha (by rw [Entry.timingUpdate, if_neg (by rw [hnot]; nofun), if_pos hdue]) ⟨rfl, rfl⟩ o
    rw [← hleft] at hout
    refine ⟨s.quiet.occur o, State.comesAboutAtEnd_eq ?_, exec_commandOf o s, hout.entry, hout.reaction, hout.fifo, hout.levels,
      hout.config⟩
    rw [periodExpired, hbefore, hout.entry]
    split <;> simp
  · have hstale : (s.entry i).staleDue = true := by
      rw [Entry.staleDue, hdue, Bool.true_and, decide_eq_true hmiss]
    have hout := hu.runsOut (i := i) (l := { (s.entry i).live with since := 0, miss := (s.entry i).config.missLimit, timing := .stale })
      hi hl.2.2.2 hfreeze ha (by rw [Entry.timingUpdate, if_pos hstale]) ⟨rfl, rfl⟩ o
    have hlt : i < 64 := by
      by_contra hge
      rw [State.entry_beyond (by rw [hl.2.2.2.1]; omega)] at ha
      cases ha
    have hlaw' : u.tableLawful := hl.2.2.2.frame ⟨by rw [hu.table], by rw [hu.op], by rw [hu.op], hu.streak⟩
    have hentry (j : Nat) : u.entry j = s.entry j := State.entry_congr (congrArg WatchTable.entries hu.table) j
    obtain ⟨htold, hqueued⟩ := State.trainEndInPath_told (i := i) hlaw' (hu.freeze.trans hfreeze) hlt (by rw [hentry, ha])
      (by rw [hentry, hstale])
    have hfrom := State.leftBy_leftFrom (hu.inPath hi) o
    have htold := hfrom.toldStale htold
    rw [← hleft] at hout htold hfrom
    have hdepth : (s.quiet.occur o).queue.items.length ≤ 32 :=
      (capacity_stepLaw.occur (capacity_stepLaw.quiet ((State.withinCapacity_iff s).1 hl.1)) o).depth
    rw [hu.sequence] at htold hqueued
    refine ⟨s.quiet.occur o, State.comesAboutAtEnd_eq ?_, exec_commandOf o s, hout.entry, htold.1, ⟨fun hroom => ?_, ?_⟩,
      hout.reaction, hout.fifo, hout.levels, hout.config⟩
    · rw [becameStale, hbefore, hout.entry]
      split <;> simp [htiming]
    · obtain ⟨ys, hq, hlen, -⟩ := hu.queue
      have hcount : ((List.range i).countP fun j => (u.entry j).staleDue) = (List.range i).countP fun j => (s.entry j).goesStale := by
        simp only [hentry, Entry.goesStale_eq]
      obtain ⟨x, hx, hsays⟩ := hqueued (by
        rw [hcount, hq, List.length_append]
        have hroom' : s.queue.items.length + s.reportsAt o + ((List.range i).countP fun j => (s.entry j).goesStale) < 32 := hroom
        omega)
      exact ⟨x, by rw [hfrom.queue]; exact hx, hsays⟩
    · exact htold.2.imp_right fun ⟨hge, hfull⟩ => ⟨Nat.le_antisymm hdepth hge, hfull⟩

end

end Sys2Proof.Machine
end

section
/-! PROOF. The Link Controller at a train end in the path (R32, R33, R36, R38), the reports an end makes (R21, R22) and what the header's CLR
leaves of the entries and the factors (R134, R135, R137). -/

namespace Sys2Proof.Machine

section

variable {s t u v w : State} {o : Occasion} {x : LineSymbol} {cs ds : List Nat} {k i : Nat}

/-! ### The pending mode at the end of a train (R36, R38) -/

/-- In the path the pending mode comes into force, a BYPASS only if no operation runs. -/
theorem Link.Sound.applyPending_eq {l : Link} (h : l.Sound) (hi : l.state.inPath = true) (idle : Bool) :
    l.applyPending idle =
      match l.pendingMode with
      | .none => l
      | .observe => { l with mode := .observe, state := .inline, heldCount := 0, pendingMode := .none }
      | .active => { l with mode := .active, state := .inline, heldCount := 0, pendingMode := .none }
      | .bypass n =>
        if idle = true then { l with state := .leaveWait, heldCount := n, pendingMode := .none } else { l with pendingMode := .none } := by
  have happly (m : Mode) : l.applyMode m = { l with mode := m, state := .inline, heldCount := 0, pendingMode := .none } := by
    cases hs : l.state <;> rw [hs] at hi
    case acquire | joinWait | held => cases hi
    case inline =>
      have hheld := h.heldCount_zero (by rw [hs]; nofun) (by rw [hs]; nofun)
      rw [Link.applyMode, hs, ← hheld]
    case leaveWait => rw [Link.applyMode, hs]
  unfold Link.applyPending
  rw [if_pos hi]
  cases hm : l.pendingMode
  case none => rfl
  case observe => exact happly .observe
  case active => exact happly .active
  case bypass n => rfl

/-- The operation ends with the train exactly where the statements say that it does not outlast it. -/
theorem State.Found.outlasts (hu : s.Found k u) : u.countTrain.op.slot.isIdle = !s.outlastsTrain := by
  have ended (v : State) (c : EndCause) (how : TrialLeave) : (v.endOperation c how).op.slot.isIdle = true := by
    by_cases hs : v.op.slot = .idle
    · rw [State.endOperation, if_pos (OperationSlot.isIdle_iff.2 hs), hs]
      rfl
    · rw [State.endOperation_eq hs]
      simp [State.operationEnded, OperationSlot.isIdle]
  have hop : u.timed.op = s.op := (State.timed_frame u).1.trans hu.op
  obtain ⟨hidle, hcapture, htrial⟩ := State.countOperation_eq u.framer.freezeFlag u.timed
  rw [State.countTrain, State.outlastsTrain]
  cases hs : s.op.slot
  case idle =>
    rw [hidle (by rw [hop, hs]), hop, hs]
    rfl
  case capture c =>
    rw [hcapture c (by rw [hop, hs])]
    dsimp only
    by_cases hlast : c.without + 1 = c.limit
    · rw [if_pos hlast, ended]
      simp [hlast]
    · rw [if_neg hlast]
      simp [hlast, OperationSlot.isIdle]
  case trial r =>
    rw [htrial r (by rw [hop, hs]), hu.freeze]
    dsimp only
    by_cases hfreeze : s.trainFlag 1 = true
    · rw [if_pos hfreeze, hop, hs, hfreeze]
      rfl
    rw [if_neg hfreeze]
    by_cases hlast : r.counted + 1 = r.limit
    · rw [if_pos hlast, ended]
      simp [hlast, hfreeze]
    · rw [if_neg hlast]
      simp [hlast, OperationSlot.isIdle]

/-- The link after the end of a train in the path. -/
theorem State.Found.trainEnd_link (hu : s.Found k u) (hi : s.inPath = true) (byTe : Bool) :
    (u.trainEnd byTe).link = s.link.applyPending u.countTrain.op.slot.isIdle := by
  rw [State.trainEnd_inPath (hu.inPath hi)]
  show u.trainEndInPath.link.applyPending u.trainEndInPath.op.slot.isIdle = _
  have hlink : u.trainEndInPath.link = s.link := by simpa using hu.link
  rw [hlink, State.trainEndInPath_op]

theorem State.Found.linkAfterEnd (hu : s.Found k u) (hl : s.link.Sound) (hi : s.inPath = true) (byTe : Bool) :
    (u.trainEnd byTe).link = s.linkAfterEnd := by
  rw [hu.trainEnd_link hi, hl.applyPending_eq hi, hu.outlasts, State.linkAfterEnd]
  cases s.link.pendingMode
  case bypass n => cases s.outlastsTrain <;> rfl
  all_goals rfl

theorem State.linkAfterEnd_inPath (hu : s.Found k u) (hl : s.link.Sound) (hi : s.inPath = true) :
    s.linkAfterEnd.state.inPath = true := by
  rw [← hu.linkAfterEnd hl hi true, hu.trainEnd_link hi, (Link.applyPending_frame _ _).2.1]
  exact hi

/-- A part leaves with FILL at the head of its line (R32). -/
theorem State.leaveDue_head (h : s.leaveDue = true) : s.link.state = .leaveWait ∧ s.delay.head? = some .fill := by
  simp only [State.leaveDue, Bool.and_eq_true, beq_iff_eq] at h
  obtain ⟨⟨⟨hwait, -⟩, hfill⟩, -⟩ := h
  exact ⟨hwait, by rw [hfill]; rfl⟩

/-- In the path the head of the line is the symbol that has just arrived. -/
theorem State.afterArrival_head (hl : s.link.Sound) (hi : s.inPath = true) (x : LineSymbol) :
    (s.afterArrival x).delay.head? = some x.taken :=
  congrArg List.head? (if_pos ⟨hl.exclusive hi, hi⟩ : (s.afterArrival x).delay = x.taken :: s.delay.dropLast)

/-- Every end of a train in the path applies the mode, and closes the train's marks (R38, R39); the FILL at the limit may let the part
leave (R32), and a loss of signal moves the link on (R33). -/
theorem State.Found.leftBy_link (hu : s.Found k u) (hl : s.link.Sound) (hi : s.inPath = true) (he : s.endsTrainAt o)
    (hline : ∀ x, o = .arrival x → x.taken ≠ .fill → u.delay = (s.afterArrival x).delay) :
    (u.leftBy o).position = none ∧ (u.leftBy o).alert.noticeRun = 0 ∧
    match o with
    | .arrival x =>
      (u.leftBy o).link = s.linkAfterEnd ∨
        (x.taken = .fill ∧ s.framer.symbolCount = 2047 ∧ s.linkAfterEnd.state = .leaveWait ∧ (u.leftBy o).delay = [] ∧
          (u.leftBy o).link = { s.linkAfterEnd with state := .held, bypassClosed := true })
    | .silence =>
      (u.leftBy o).link =
        if s.linkAfterEnd.state = .leaveWait then { s.linkAfterEnd with state := .held, draining := true, drainTa := true }
        else { s.linkAfterEnd with state := .acquire, cleanCount := 0, draining := true, drainTa := true } := by
  have hmarks (b : Bool) : (u.trainEnd b).position = none ∧ (u.trainEnd b).alert.noticeRun = 0 := ⟨rfl, rfl⟩
  cases o
  case silence =>
    refine ⟨rfl, rfl, ?_⟩
    show (u.trainEnd false).link.loseSignal true = _
    have hpath := State.linkAfterEnd_inPath hu hl hi
    rw [hu.linkAfterEnd hl hi, Link.loseSignal]
    cases hs : s.linkAfterEnd.state <;> rw [hs] at hpath
    case acquire | joinWait | held => cases hpath
    all_goals rfl
  case arrival x =>
    unfold State.leftBy
    dsimp only
    split
    · obtain ⟨-, hpos, hrun⟩ := State.openTrain_opened (u.trainEnd false)
      exact ⟨hpos, hrun, .inl (by rw [← hu.linkAfterEnd hl hi false]; simp [State.openTrain, State.clearTrainMarks])⟩
    · unfold State.leaveIfDue
      split
      next hdue =>
        obtain ⟨hwait, hfill⟩ := State.leaveDue_head hdue
        rw [hu.linkAfterEnd hl hi] at hwait
        have hx : x.taken = .fill := by
          by_contra hne
          rw [State.trainEnd_inPath_delay (hu.inPath hi), hline x rfl hne, State.afterArrival_head hl hi] at hfill
          exact hne (Option.some.inj hfill)
        refine ⟨rfl, rfl, .inr ⟨hx, ?_, hwait, rfl, by rw [hu.linkAfterEnd hl hi]⟩⟩
        exact (he.2.resolve_left (by rw [hx]; simp)).1
      · exact ⟨rfl, rfl, .inl (hu.linkAfterEnd hl hi _)⟩

/-! ### The reports of an end (R21, R22) -/

/-- The Framer's reports of the causes cs: LINK rises with the first, and while the queue has room their incidents join it in order. -/
structure State.Tells (cs : List Nat) (s u : State) : Prop where
  link : u.link = s.link
  sequence : u.framer.sequence = s.framer.sequence
  factor : u.alert.flags.link = (s.alert.flags.link || !cs.isEmpty)
  queue : s.queue.items.length + cs.length ≤ 32 → ∃ ys, u.queue.items = s.queue.items ++ ys ∧
    (ys.map fun y => (y.kind, y.entry, y.train, y.value)) =
      cs.map fun c => (IncidentKind.link, none, s.framer.sequence, some (BitVec.ofNat 16 c))

theorem State.Tells.of_same (h : u.link = s.link ∧ u.framer.sequence = s.framer.sequence ∧ u.alert.flags = s.alert.flags ∧ u.queue = s.queue) :
    s.Tells [] u := by
  obtain ⟨hl, hs, hf, hq⟩ := h
  exact ⟨hl, hs, by rw [hf]; simp, fun _ => ⟨[], by rw [hq, List.append_nil], rfl⟩⟩

theorem State.Tells.trans (h : s.Tells cs t) (h' : t.Tells ds u) : s.Tells (cs ++ ds) u where
  link := h'.link.trans h.link
  sequence := h'.sequence.trans h.sequence
  factor := by
    rw [h'.factor, h.factor]
    cases cs <;> simp
  queue hroom := by
    rw [List.length_append] at hroom
    obtain ⟨ys, hy, hsays⟩ := h.queue (by omega)
    have hlen : ys.length = cs.length := by simpa using congrArg List.length hsays
    obtain ⟨zs, hz, hsays'⟩ := h'.queue (by rw [hy, List.length_append]; omega)
    exact ⟨ys ++ zs, by rw [hz, hy, List.append_assoc], by rw [List.map_append, List.map_append, hsays, hsays', h.sequence]⟩

theorem State.Tells.report (hi : s.inPath = true) (c : Nat) : s.Tells [c] (s.reportInPath c) := by
  rw [State.reportInPath, if_pos hi]
  refine ⟨by simp, by simp, ?_, fun hroom => ?_⟩
  · rw [State.report, State.pushIncident]
    split
    · rw [State.raise_flags]
      simp [PerFactor.set]
    · rw [State.raise_flags, State.raise_flags]
      simp [PerFactor.set]
  · have hlt : (s.raise .link).queue.items.length < 32 := by simpa using hroom
    rw [State.report, State.pushIncident_room hlt]
    exact ⟨[_], rfl, by simp⟩

/-- The end of a train reports the causes that the statements list. -/
theorem State.Tells.ended (hi : s.inPath = true) (hp : s.framer.position ≠ .outside) (y : Symbol) :
    s.Tells (s.endCauses y) (s.cutShort.endReported (y == .te)) := by
  have readableEnd {u : State} (hui : u.inPath = true) (hu : u.framer.readable = true) :
      u.Tells (if y = .te then [] else [4]) (u.endReported (y == .te)) := by
    rw [State.endReported, if_pos hu]
    by_cases hte : y = .te
    · rw [if_pos hte, if_pos (by simpa using hte)]
      exact .of_same (by simp)
    · rw [if_neg hte, if_neg (by simpa using hte)]
      exact .report hui 4
  have unreadEnd (hs : s.framer.readable = false) (hcut : s.cutShort = s) (hcauses : s.endCauses y = [3]) :
      s.Tells (s.endCauses y) (s.cutShort.endReported (y == .te)) := by
    rw [hcut, hcauses, State.endReported, if_neg (by rw [hs]; nofun)]
    exact .report hi 3
  cases hpos : s.framer.position
  case outside => exact absurd hpos hp
  case body =>
    rw [State.endCauses, hpos, show s.cutShort = s by rw [State.cutShort, hpos]]
    exact readableEnd hi (by rw [Framer.readable, hpos])
  case skip =>
    rw [State.endCauses, hpos, show s.cutShort = s.setPosition .body by rw [State.cutShort, hpos]]
    exact (State.Tells.of_same (s := s) (u := s.setPosition .body) ⟨rfl, rfl, rfl, rfl⟩).trans (readableEnd hi rfl)
  case record r =>
    rw [State.endCauses, hpos, show s.cutShort = s.cutRecord by rw [State.cutShort, hpos]]
    have hcut : s.Tells [1] s.cutRecord :=
      (State.Tells.report hi 1).trans (ds := []) (.of_same (s := s.reportInPath 1) (u := s.cutRecord) ⟨rfl, rfl, rfl, rfl⟩)
    exact hcut.trans (readableEnd (by rw [State.inPath, hcut.link]; exact hi) rfl)
  all_goals exact unreadEnd (by rw [Framer.readable, hpos]) (by rw [State.cutShort, hpos]) (by rw [State.endCauses, hpos])

theorem State.Tells.endedBy (hi : s.inPath = true) (hp : s.framer.position ≠ .outside) (x : LineSymbol) :
    s.Tells (s.endCauses x.taken) (s.endedBy x) := by
  have harrived : s.Tells [] (s.afterArrival x) := .of_same ⟨rfl, rfl, rfl, rfl⟩
  have hended := State.Tells.ended (s := s.afterArrival x) hi hp x.taken
  exact harrived.trans hended

/-- LINK after the end of a train: the header's CLR takes it down (R137). -/
theorem State.trainEndInPath_linkFlag (u : State) :
    u.trainEndInPath.alert.flags.link = (!u.framer.clrFlag && u.alert.flags.link) := by
  have hlink : u.countTrain.alert.flags.link = u.alert.flags.link := by rw [(State.Counted.countTrain u).factors]
  rw [State.trainEndInPath_eq]
  split
  next hclr => rw [(State.clearAll _).2, hclr]; rfl
  next hclr => rw [hlink, Bool.eq_false_iff.2 hclr]; rfl

theorem State.trainEndInPath_counted (u : State) :
    ∃ ys, u.trainEndInPath.queue.items = u.queue.items ++ ys ∧ ∀ y ∈ ys, y.kind = .stale := by
  obtain ⟨ys, hq, -, hkind⟩ := (State.Counted.countTrain u).queue
  refine ⟨ys, ?_, hkind⟩
  rw [State.trainEndInPath_eq, ← hq]
  split <;> simp

/-! ### The header's CLR (R137) -/

theorem Entry.released_recovered {e : Entry} (ha : e.released.state = .armed) (hc : e.released.live.condition = .tripped) :
    e.released.live.recovered = false := by
  by_cases h : (e.state == .armed && e.live.condition == .tripped && e.live.recovered) = true
  · rw [Entry.released, if_pos h] at hc
    cases hc
  · rw [Entry.released, if_neg h] at ha hc ⊢
    simpa [ha, hc] using h

theorem Entry.released_timing (e : Entry) : e.released.live.timing = e.live.timing := by
  unfold Entry.released
  split <;> rfl

theorem Entry.timingUpdate_judged (e : Entry) : e.timingUpdate.live.condition = e.live.condition ∧
    e.timingUpdate.live.run = e.live.run ∧ e.timingUpdate.live.recovered = e.live.recovered := by
  unfold Entry.timingUpdate
  repeat' split
  all_goals exact ⟨rfl, rfl, rfl⟩

/-- Only a count that raises STALE makes an entry STALE (R96). -/
theorem State.countTrain_stale (hlen : u.table.entries.length = 64) (ht : (u.countTrain.entry i).live.timing = .stale)
    (hstale : u.alert.flags.stale = true ∨ (u.entry i).live.timing ≠ .stale) : u.countTrain.alert.flags.stale = true := by
  rcases hstale with hflag | hnot
  · exact (State.Counted.countTrain u).staleStays hflag
  have htimed : (u.timed.entry i).live.timing = .stale := by
    rw [← ht]
    rcases State.countTrain_entry u i with he | ⟨⟨how, he⟩, -⟩ <;> rw [he]
    rfl
  rw [State.timed_entry hlen] at htimed
  by_cases hfreeze : u.framer.freezeFlag = true
  · rw [if_pos hfreeze] at htimed
    exact absurd htimed hnot
  rw [if_neg hfreeze, Entry.timingUpdate] at htimed
  have hdue : (u.entry i).staleDue = true := by
    by_contra hno
    rw [if_neg hno] at htimed
    split at htimed
    · cases htimed
    · split at htimed <;> exact hnot htimed
  have hlt : i < 64 := by
    by_contra hge
    rw [State.entry_beyond (by omega)] at hdue
    cases hdue
  have hcount : u.timingUpdate.Counted 0 u.countTrain := by
    rw [State.countTrain, State.timed, if_neg hfreeze]
    exact .countOperation _ _
  exact hcount.staleStays (State.timingUpdate_told hlt hdue).1.1

end

end Sys2Proof.Machine
end

section
/-! PROOF. The train end in the path as a whole (R21, R22, R36, R38, R39, R102, R134, R135, R137). -/

namespace Sys2Proof.Machine

section

variable {s t u : State} {o : Occasion} {k i : Nat}

/-- The blocks after a train end with a CLR header: every entry released, and a factor kept only while its cause stands. -/
theorem State.Found.cleared (hu : s.Found k u) (hclr : s.trainFlag 0 = true) (hm : u.trainEndInPath.SameUnits t) :
    (∀ i, t.entry i = (u.countTrain.entry i).released) ∧
    t.alert.flags =
      { trip := s.alert.flags.trip && t.anyTripped
        stale := u.countTrain.alert.flags.stale && t.anyStale
        link := false
        qfull := u.countTrain.alert.flags.qfull && !decide (t.queue.items.length < 32)
        slot := false
        isol := s.alert.flags.isol && s.reaction.isolated
        opdone := false } := by
  have hend : u.trainEndInPath = u.countTrain.clear fullMask .allEntries := by
    rw [State.trainEndInPath_eq, if_pos (hu.clr.trans hclr)]
  rw [hend] at hm
  obtain ⟨hentries, hflags⟩ := State.clearAll u.countTrain
  refine ⟨fun i => by rw [hm.entry, hentries], ?_⟩
  have htable : t.anyTripped = (u.countTrain.clear fullMask .allEntries).anyTripped ∧
      t.anyStale = (u.countTrain.clear fullMask .allEntries).anyStale := by
    rw [State.anyTripped, State.anyStale, hm.table]
    exact ⟨rfl, rfl⟩
  have hqueue : t.queue = u.countTrain.queue := by simpa using hm.queue
  have hisolated : u.countTrain.reaction = s.reaction := (State.countTrain_frame u).2.1.trans hu.reaction
  have hcounted := (State.Counted.countTrain u).factors
  have htrip : u.countTrain.alert.flags.trip = s.alert.flags.trip := by rw [hcounted, hu.factors]
  have hisol : u.countTrain.alert.flags.isol = s.alert.flags.isol := by rw [hcounted, hu.factors]
  rw [hm.flags, hflags, htable.1, htable.2, hqueue, hisolated, htrip, hisol]

/-- Without CLR the judged fields of an ARMED entry stay. -/
theorem State.Found.notCleared (hu : s.Found k u) (hlen : s.table.entries.length = 64) (hclr : s.trainFlag 0 = false)
    (hm : u.trainEndInPath.SameUnits t) (ha : (t.entry i).state = .armed) :
    (t.entry i).live.condition = (s.entry i).live.condition ∧ (t.entry i).live.run = (s.entry i).live.run ∧
      (t.entry i).live.recovered = (s.entry i).live.recovered := by
  have hentry : t.entry i = u.countTrain.entry i := by
    rw [hm.entry, State.trainEndInPath_eq, if_neg (by rw [hu.clr, hclr]; nofun)]
  have htimed : u.countTrain.entry i = u.timed.entry i := by
    refine (State.countTrain_entry u i).resolve_right fun ⟨⟨how, he⟩, _⟩ => ?_
    rw [hentry, he] at ha
    simp [Entry.leaveTrial] at ha
  have hfound : u.entry i = s.entry i := State.entry_congr (congrArg WatchTable.entries hu.table) i
  rw [hentry, htimed, State.timed_entry (by rw [hu.table]; exact hlen), hfound]
  split
  · exact ⟨rfl, rfl, rfl⟩
  · exact Entry.timingUpdate_judged _

/-- ISOL stays with isolation (R129). -/
theorem State.Found.isolStays (hu : s.Found k u) (hf : s.alert.flags.isol = s.reaction.isolated) (hm : u.trainEndInPath.SameUnits t) :
    t.alert.flags.isol = s.alert.flags.isol := by
  by_cases hclr : s.trainFlag 0 = true
  · rw [(hu.cleared hclr hm).2, ← hf, Bool.and_self]
  · rw [hm.flags, State.trainEndInPath_eq, if_neg (by rw [hu.clr]; exact hclr), (State.Counted.countTrain u).factors, hu.factors]

/-- The queue and LINK after the end that a symbol brings, with the reports the statements list. -/
theorem State.Tells.leftBy {cs : List Nat} (h : s.Tells cs u) (hu : s.Found k u) (hi : s.inPath = true) (o : Occasion) :
    let before := s.queue.items.length
    (u.leftBy o).alert.flags.link = (!s.trainFlag 0 && (s.alert.flags.link || !cs.isEmpty)) ∧
    (before + cs.length ≤ 32 →
      (u.leftBy o).queue.items.take before = s.queue.items ∧
      ((((u.leftBy o).queue.items.drop before).take cs.length).map fun y => (y.kind, y.entry, y.train, y.value)) =
        (cs.map fun c => (IncidentKind.link, none, s.framer.sequence, some (BitVec.ofNat 16 c))) ∧
      ∀ y ∈ (u.leftBy o).queue.items.drop (before + cs.length), y.kind = .stale) := by
  have hleft := State.leftBy_leftFrom (hu.inPath hi) o
  refine ⟨?_, fun hroom => ?_⟩
  · have hkept : (u.leftBy o).alert.flags.link = u.trainEndInPath.alert.flags.link := by
      rcases hleft.flags with hf | hf <;> rw [hf]
      rfl
    rw [hkept, State.trainEndInPath_linkFlag, hu.clr, h.factor]
  · obtain ⟨ys, hy, hsays⟩ := h.queue hroom
    obtain ⟨zs, hz, hkind⟩ := State.trainEndInPath_counted u
    have hlen : cs.length = ys.length := by simpa using (congrArg List.length hsays).symm
    rw [hleft.queue, hz, hy, hlen, List.append_assoc]
    refine ⟨List.take_left, ?_, ?_⟩
    · rw [List.drop_left, List.take_left, hsays]
    · rw [← List.append_assoc, ← List.length_append, List.drop_left]
      exact hkind

/-- The TE that ends a train in the path leaves the part at its place. -/
theorem State.occur_te (hr : s.running = true) (hl : s.link.Sound) (hi : s.inPath = true) (hp : s.framer.position ≠ .outside) :
    s.quiet.occur (.arrival (.readable .te)) = (s.endedBy (.readable .te)).trainEnd true := by
  rw [State.occur_endedBy hr hp (by simp [LineSymbol.taken])]
  show ((s.endedBy (.readable .te)).trainEnd true).leaveIfDue = _
  rw [State.leaveIfDue, if_neg fun hdue => ?_]
  have hhead := (State.leaveDue_head hdue).2
  rw [State.trainEnd_inPath_delay ((State.found_endedBy hp _).inPath hi), State.endedBy_delay, State.afterArrival_head hl hi] at hhead
  cases hhead

/-- Settles O46: the TE through its train end, the reports of the three symbols, and the link of every occasion. -/
theorem aTrainEndAppliesTheModeAndTheClear : Obligations.ATrainEndAppliesTheModeAndTheClear := by
  unfold Obligations.ATrainEndAppliesTheModeAndTheClear
  intro s hl hr hi hp
  have hplaced := (State.placed_iff s).1 hl.2.2.1
  have hsound := hplaced.seated.link
  have hdepth (o : Occasion) : (s.quiet.occur o).queue.items.length ≤ 32 :=
    (capacity_stepLaw.occur (capacity_stepLaw.quiet ((State.withinCapacity_iff s).1 hl.1)) o).depth
  refine ⟨?te, fun x hx => ?reports, fun o he => ?link⟩
  case te =>
    have hu := State.found_endedBy hp (.readable .te)
    let u := s.endedBy (.readable .te)
    have hend := State.occur_te hr hsound hi hp
    have hm : u.trainEndInPath.SameUnits (u.trainEnd true) := State.trainEnd_units (hu.inPath hi) true
    have hlink : (u.trainEnd true).link = s.link.applyPending (u.trainEnd true).op.slot.isIdle := by
      rw [hu.trainEnd_link hi, hm.op, State.trainEndInPath_op]
    have hlen : u.table.entries.length = 64 := by rw [hu.table]; exact hl.2.2.2.1
    have hdepth : (u.trainEnd true).queue.items.length ≤ 32 := hend ▸ hdepth _
    have hframer : (u.trainEnd true).framer = u.framer.closed := by rw [State.trainEnd_inPath (hu.inPath hi)]
    refine ⟨u.trainEnd true, congrArg Host.Outcome.next hend, rfl, by rw [hframer]; exact hu.sequence, rfl, rfl, rfl, rfl, rfl, rfl, rfl, ?_, fun hclr => ?_,
      hu.isolStays hl.2.1.1 hm, fun hclr i => hu.notCleared hl.2.2.2.1 hclr hm⟩
    · rw [hlink, hsound.applyPending_eq hi]
      cases s.link.pendingMode
      case bypass n => exact if_congr OperationSlot.isIdle_iff rfl rfl
      all_goals rfl
    obtain ⟨hentries, hflags⟩ := hu.cleared hclr hm
    have hcounted := State.Counted.countTrain u
    rw [hflags]
    refine ⟨fun i ha hc => ?_, rfl, rfl, rfl, fun h => ?_, fun h => ?_, fun h => ?_, fun htrip hany => ?_, fun i hi hstale => ?_,
      fun hfull hlen => ?_⟩
    · rw [hentries] at ha hc ⊢
      exact Entry.released_recovered ha hc
    · exact (State.anyTripped_iff _).1 (Bool.and_eq_true_iff.1 h).2
    · exact (State.anyStale_iff _).1 (Bool.and_eq_true_iff.1 h).2
    · have hge := (Bool.and_eq_true_iff.1 h).2
      simp only [Bool.not_eq_true', decide_eq_false_iff_not] at hge
      omega
    · exact Bool.and_eq_true_iff.2 ⟨htrip, (State.anyTripped_iff _).2 hany⟩
    · refine Bool.and_eq_true_iff.2 ⟨State.countTrain_stale (i := i) hlen ?_ ?_, (State.anyStale_iff _).2 ⟨i, hi⟩⟩
      · rw [← Entry.released_timing, ← hentries]
        exact hi
      · rw [State.entry_congr (congrArg WatchTable.entries hu.table), hu.factors]
        exact hstale
    · refine Bool.and_eq_true_iff.2 ⟨hcounted.qfullStays (hu.qfullStays hfull), ?_⟩
      simp [hlen]
  case reports =>
    have htells := State.Tells.endedBy hi hp (.readable x)
    have hu := State.found_endedBy hp (.readable x)
    refine ⟨s.quiet.occur (.arrival (.readable x)), rfl, ?_⟩
    rw [State.occur_endedBy (x := .readable x) hr hp hx]
    exact htells.leftBy hu hi _
  case link =>
    obtain ⟨u, hu, hleft, hline⟩ := State.occasion_end hr hplaced hi he
    refine ⟨s.quiet.occur o, exec_commandOf o s, ?_⟩
    rw [hleft]
    have hlink := hu.leftBy_link hsound hi he hline
    cases o <;> exact hlink

end

end Sys2Proof.Machine
end

section
/-! PROOF. The break at the 2048th symbol of a train, whatever that symbol completes (R19, R21, R22). -/

namespace Sys2Proof.Machine

section

variable {s t u v : State} {x : LineSymbol} {k n i : Nat}

/-! ### What a record that completes leaves of the queue -/

/-- No request puts an incident in the queue: TAKE INCIDENTS and RESTART take them out, the others leave them (R140, R145). -/
theorem RequestKind.carryOut_queue (h : s.queue.items.length ≤ n) (q : RequestKind) (ops : List Byte) :
    (q.carryOut ops s).state.queue.items.length ≤ n := by
  cases q
  case identify | readStatus | readCapture => exact h
  case takeIncidents =>
    refine Nat.le_trans ?_ h
    rw [RequestKind.carryOut, reqTakeIncidents]
    exact (List.length_drop ..).trans_le (Nat.sub_le ..)
  case arm | disarm | free =>
    refine withEntry_state (P := fun u => u.queue.items.length ≤ n) h fun i => ?_
    repeat' split
    all_goals exact h
  case readEntry | loadEntry | startTrial =>
    refine withEntry_state (P := fun u => u.queue.items.length ≤ n) h fun i => ?_
    dsimp only
    repeat' split
    all_goals exact h
  case setAlerts | setWindows | loadSlot | readSlot | startCapture =>
    simp only [RequestKind.carryOut, reqSetAlerts, reqSetWindows, reqLoadSlot, reqReadSlot, reqStartCapture]
    repeat' split
    all_goals exact h
  case setMode =>
    simp only [RequestKind.carryOut, reqSetMode]
    repeat' split
    all_goals exact h
  case clearAlerts =>
    simp only [RequestKind.carryOut, reqClearAlerts]
    repeat' split
    all_goals exact h
  case release =>
    simp only [RequestKind.carryOut, reqRelease]
    split
    · simpa using h
    · exact h
  case restart =>
    simp only [RequestKind.carryOut, reqRestart]
    split
    · exact Nat.zero_le _
    · exact Nat.zero_le _
    · exact h
  case abort =>
    simp only [RequestKind.carryOut, reqAbort]
    split
    all_goals simpa [acceptAbort, refuse] using h

theorem respond_queue (h : s.queue.items.length ≤ n) (code : Byte) (ops : List Byte) :
    (respond code ops s).state.queue.items.length ≤ n := by
  unfold respond
  split
  · exact h
  · unfold RequestKind.respond
    split
    · exact h
    · exact RequestKind.carryOut_queue h _ ops

theorem State.completeRequest_queue (q : Request) (s : State) : (s.completeRequest q).queue.items.length ≤ s.queue.items.length := by
  unfold State.completeRequest
  split
  next =>
    split
    · unfold State.takeBroadcast
      split
      next kind hk =>
        split
        · have h := respond_queue (Nat.le_refl s.queue.items.length) q.code q.operands
          rwa [respond, hk] at h
        · exact Nat.le_refl _
      · exact Nat.le_refl _
    split
    · split
      · simpa [State.answer] using respond_queue (Nat.le_refl s.queue.items.length) q.code q.operands
      · exact Nat.le_refl _
    · exact Nat.le_refl _
  · exact Nat.le_refl _

theorem State.pushIncident_length (kind : IncidentKind) (e : Option Nat) (w : Option Word) (s : State) :
    (s.pushIncident kind e w).queue.items.length ≤ s.queue.items.length + 1 := by
  unfold State.pushIncident
  split
  · simp
  · simp

/-- A judged record queues one incident at the most (R83, R84, R87). -/
theorem State.judge_queue (d : DataRecord) (s : State) : (s.judge d).queue.items.length ≤ s.queue.items.length + 1 := by
  unfold State.judge
  split
  · exact Nat.le_succ _
  split
  · simp
  unfold State.judgeArmed
  dsimp only
  split
  · unfold State.tripActions
    simpa using State.pushIncident_length .trip _ _ (s.updateEntry _ _)
  split
  · simpa using State.pushIncident_length .recover _ _ (s.updateEntry _ _)
  split <;> simp

/-- A record that completes in the path queues one incident at the most. -/
theorem State.deliver_queue (r : RecordProgress) (s : State) : (s.deliver r).queue.items.length ≤ s.queue.items.length + 1 := by
  unfold State.deliver
  split
  · unfold State.completeData
    split
    · dsimp only
      split
      · simp
      · simpa using State.judge_queue r.dataRecord (s.captureRecord r.dataRecord)
    · exact Nat.le_succ _
  · exact Nat.le_succ_of_le (State.completeRequest_queue _ s)
  · exact Nat.le_succ _
  · exact Nat.le_succ _

/-! ### The symbol before the break -/

/-- The train is open still, as far along, and at most k incidents have joined the queue. -/
structure State.StillOpen (k : Nat) (s u : State) : Prop where
  path : u.inPath = s.inPath
  sequence : u.framer.sequence = s.framer.sequence
  flags : u.framer.flags = s.framer.flags
  readable : u.framer.readable = s.framer.readable
  count : u.framer.symbolCount = s.framer.symbolCount
  opened : u.framer.position ≠ .outside
  queue : u.queue.items.length ≤ s.queue.items.length + k

theorem State.HeardIn.stillOpen (h : s.HeardIn k u) : s.StillOpen k u where
  path := by rw [State.inPath, h.link, State.inPath]
  sequence := h.sequence
  flags := h.flags
  readable := h.readable
  count := h.count
  opened := h.opened
  queue := by
    obtain ⟨ys, hq, hlen, -⟩ := h.queue
    rw [hq, List.length_append]
    omega

theorem State.StillOpen.trans (h : s.StillOpen k t) (h' : t.StillOpen n u) : s.StillOpen (k + n) u where
  path := h'.path.trans h.path
  sequence := h'.sequence.trans h.sequence
  flags := h'.flags.trans h.flags
  readable := h'.readable.trans h.readable
  count := h'.count.trans h.count
  opened := h'.opened
  queue := by
    have := h.queue
    have := h'.queue
    omega

/-- The last byte of a record: delivered, or found damaged (R17). -/
theorem State.StillOpen.finishRecord (hs : s.framer.readable = true) (r : RecordProgress) : s.StillOpen 1 (s.finishRecord r) := by
  have hbody := State.HeardIn.toBody hs
  unfold State.finishRecord
  dsimp only
  split
  · refine hbody.stillOpen.trans (n := 1) ?_
    have hframer : ((s.setPosition .body).deliver r).framer = (s.setPosition .body).framer := State.deliver_open
    exact
      { path := by simp [State.inPath], sequence := by rw [hframer], flags := by rw [hframer], readable := by rw [hframer]
        count := by rw [hframer], opened := by rw [hframer]; exact hbody.opened, queue := State.deliver_queue r _ }
  · exact (hbody.trans (.damagedRecord (hbody.readable.trans hs))).stillOpen

/-- A symbol past the header that ends no train leaves it open. -/
theorem State.StillOpen.takeSymbol {y : Symbol} (hp : s.framer.readable = true ∨ s.framer.position = .unread)
    (hc : s.framer.symbolCount ≠ 4) (hy : y ∉ [Symbol.te, .ta, .ts]) : s.StillOpen 1 (s.takeSymbol y) := by
  by_cases hcomplete : s.completesWith y
  case neg => exact (State.HeardIn.takeSymbol hp hc hy hcomplete).stillOpen
  case pos =>
    obtain ⟨-, r, b, hpos, rfl, hlast⟩ := hcomplete
    have hs : s.framer.readable = true := by rw [Framer.readable, hpos]
    have hsome : r.bytes.isEmpty = false := by
      rw [List.isEmpty_eq_false_iff, ← List.length_pos_iff]
      omega
    have hwhole : (r.take b false).bytes.length = (r.take b false).length + 6 := by
      rw [RecordProgress.take_length hsome]
      simp [RecordProgress.take, hlast]
    have htake : s.takeSymbol (.data b) = s.breakRun.finishRecord (r.take b false) := by
      rw [State.takeSymbol, hpos]
      show s.takeRecordByte r b false = _
      rw [State.takeRecordByte, if_neg (by rw [hsome]; nofun)]
      exact if_pos hwhole
    rw [htake]
    exact (State.HeardIn.breakRun (Framer.open_of_readable hs)).stillOpen.trans (.finishRecord (s := s.breakRun) hs _)

/-! ### The statement -/

theorem State.Tells.breakReported (hi : s.inPath = true) :
    s.Tells [if s.framer.readable = true then 4 else 3] (s.endReported false) := by
  rw [State.endReported]
  split
  · exact .report hi 4
  · exact .report hi 3

/-- The break's report in the path: LINK stays unless the header's CLR takes it down, and the incident joins a queue with room. -/
theorem State.limitBreak_told (hi : v.inPath = true) (ho : v.framer.position ≠ .outside) :
    v.limitBreak.alert.flags.link = !(v.framer.readable && v.framer.flags.getLsbD 0) ∧
    (v.queue.items.length ≤ 30 →
      ∃ i ∈ v.limitBreak.queue.items, i.kind = .link ∧ i.entry = none ∧ i.train = v.framer.sequence ∧
        i.value = some (if v.framer.readable = true then 4#16 else 3#16)) := by
  have hcut := State.HeardIn.limitCut ho
  have hw := hcut.trans (.endReported hcut.opened false)
  have htells := State.Tells.breakReported (s := v.limitCut) (hcut.stillOpen.path.trans hi)
  have hunits := State.trainEnd_units (hw.stillOpen.path.trans hi) false
  rw [← State.limitBreak_eq] at hunits
  refine ⟨?_, fun hroom => ?_⟩
  · rw [hunits.flags, State.trainEndInPath_linkFlag, htells.factor, Framer.clrFlag, hw.readable, hw.flags]
    simp
  · have hlen := hcut.stillOpen.queue
    obtain ⟨ys, hys, hsays⟩ := htells.queue (by rw [List.length_singleton]; omega)
    obtain ⟨zs, hzs, -⟩ := State.trainEndInPath_counted (v.limitCut.endReported false)
    obtain ⟨i, rfl, hi⟩ := List.map_eq_singleton_iff.1 hsays
    simp only [Prod.mk.injEq] at hi
    obtain ⟨hkind, hentry, htrain, hvalue⟩ := hi
    refine ⟨i, ?_, hkind, hentry, htrain.trans hcut.sequence, ?_⟩
    · rw [hunits.queue, hzs, hys]
      simp
    · rw [hvalue, hcut.readable]
      split <;> rfl

/-- Settles O41: the symbol leaves the train open, the break reports and ends it. -/
theorem the2048thSymbolBreaksTheTrain : Obligations.The2048thSymbolBreaksTheTrain := by
  unfold Obligations.The2048thSymbolBreaksTheTrain
  intro x s hl hr hp hc hx
  have hlate := Framer.counts_late ((State.placed_iff s).1 hl.2.2.1).counts hp hc
  have hcount : (s.afterArrival x).framer.symbolCount = 2048 := (if_neg hp).trans (by rw [hc])
  have hv := State.StillOpen.takeSymbol (s := s.afterArrival x) hlate (by rw [hcount]; nofun) hx
  have harr := State.arrive_limit hr hp hc rfl hv.opened hv.count
  generalize (s.afterArrival x).takeSymbol x.taken = v at hv harr
  have hnamed : s.quiet.limitNext x = true := by
    have hends : x.taken.endsTrain = false := by
      cases ht : x.taken <;> simp_all [Symbol.endsTrain]
    have hopen : s.quiet.framer.trainOpen = true := (Framer.trainOpen_iff _).2 hp
    have hrunning : s.quiet.running = true := hr
    have hlast : s.quiet.framer.symbolCount + 1 = Config.trainLimit := congrArg (· + 1) hc
    rw [State.limitNext, hrunning, hopen, hends, hlast]
    rfl
  have hbreak : exec (.trainLimitBreak x) s = .next (s.quiet.arrive x) := if_pos hnamed
  have hframer : v.limitBreak.leaveIfDue.framer = v.limitBreak.framer := by simp
  have hclosed : v.limitBreak.framer.position = .outside ∧ v.limitBreak.framer.symbolCount = 0 ∧
      v.limitBreak.framer.strayReported = false ∧ v.limitBreak.position = none ∧ v.limitBreak.alert.noticeRun = 0 := by
    rw [State.limitBreak_eq]
    exact ⟨rfl, rfl, rfl, rfl, rfl⟩
  obtain ⟨houtside, hzero, hstray, hplace, hrun⟩ := hclosed
  have hqueue : v.limitBreak.leaveIfDue.queue = v.limitBreak.queue := by simp
  have hroomAfter := hv.queue
  rw [harr] at hbreak
  refine ⟨v.limitBreak.leaveIfDue, hbreak, congrArg Host.Outcome.next harr, ?_, ?_, ?_, ?_, ?_, ?_, fun hi hroom => ?_, fun hi hclr => ?_⟩
  · rw [hframer, houtside]
  · rw [hframer, hzero]
  · rw [hframer]
    exact (State.limitBreak_frame v).2.2.2.2.2.2.1.trans hv.sequence
  · rw [hframer, hstray]
  · simpa using hplace
  · simpa using hrun
  · have hroom' : (s.afterArrival x).queue.items.length ≤ 29 := hroom
    obtain ⟨i, hmem, hkind, hentry, htrain, hvalue⟩ := (State.limitBreak_told (hv.path.trans hi) hv.opened).2 (by omega)
    refine ⟨i, hqueue ▸ hmem, hkind, hentry, htrain.trans hv.sequence, hvalue.trans (congrArg some ?_)⟩
    rw [hv.readable]
    rcases hlate with hread | hunread
    · have hne : s.framer.position ≠ .unread := fun h => by
        rw [Framer.readable, h] at hread
        cases hread
      rw [if_neg hne]
      exact if_pos hread
    · rw [if_pos hunread]
      exact if_neg (by rw [Framer.readable, show (s.afterArrival x).framer.position = .unread from hunread]; nofun)
  · have hflag := (State.limitBreak_told (hv.path.trans hi) hv.opened).1
    rw [hv.readable, hv.flags] at hflag
    rw [State.trainFlag_eq] at hclr
    have hkept : v.limitBreak.leaveIfDue.alert = v.limitBreak.alert := by simp
    rw [hkept, hflag, Bool.not_eq_true']
    exact hclr

end

end Sys2Proof.Machine
end
